-- ==== Sys2Proof/Word.lean ====
section
/-!
DEFINITION. The words of the device and the sparse maps that hold its storages.
Spec: R4 and R5 (bit order, nonet, half, word, double), R8 (octets).
-/
namespace Sys2Proof

/-- The internal word, 36 bits (R5). -/
abbrev Word := BitVec 36
/-- The nonet, 9 bits (R5). -/
abbrev Nonet := BitVec 9
/-- The half, 18 bits (R5). -/
abbrev Half := BitVec 18
/-- The double, 72 bits (R5). -/
abbrev Double := BitVec 72
/-- The octet of the host side, 8 bits (R8). -/
abbrev Octet := BitVec 8

/-- A sparse storage: key and value pairs, keys strictly rising, no value equal to what an unlisted key reads as. -/
abbrev SMap (α : Type) := List (Nat × α)

/-- One bit as a word. -/
def ofBool (b : Bool) : Word := if b then 1 else 0

end Sys2Proof
end

