-- ==== Sys2Proof/Operand.lean ====
section
/-!
DEFINITION. What commands carry as operands beside words and numbers: initiators, ring packets, bank accesses, severity
reports and what the board shows at start-up.
-/
namespace Sys2Proof

/-- What the board, the flash and the fuses show the device as it leaves OFF (R412, R415, R416, R515, R516, R519). -/
structure BootFacts where
  /-- every rail stands at or above 96 %, SYS_RST_N is high, REF25 runs, TEST_EN is high -/
  railsOk : Bool
  rstHigh : Bool
  refOk : Bool
  testEn : Bool
  /-- SYS_WAKE_N is low; SYS_RST_N has been pulsed -/
  wakeLow : Bool
  rstPulsed : Bool
  /-- straps PE_BIF, PE_SRIS0, PE_SRIS1, MGMT_ADDR -/
  peBif : Bool
  peSris0 : Bool
  peSris1 : Bool
  mgmt : BitVec 3
  /-- supply level found at each collie group (VCPSET) -/
  vcp : BitVec 16
  /-- flash reads of slots A and B succeed -/
  flashA : Bool
  flashB : Bool
  /-- two CRC-valid copies of the newest repair-map generation agree -/
  mapOk : Bool
  /-- bit 10k + x: the full fold test, when it runs, finds column x of FDk failed -/
  tested : BitVec 40
  /-- bit n: HSn fails training -/
  trainFail : BitVec 8
deriving DecidableEq, Repr

end Sys2Proof

namespace Sys2Proof.Machine

/-- Who makes a register access: a core, the host through function f, a DMA engine of half h, a tile, a collie engine, Gander,
Thonos, the corner-turn units of a die, or hub control (Table 10-5). -/
inductive Who where
  | core (k : Nat)
  | host (f : Nat)
  | dma (h : Nat)
  | tile (t : Nat)
  | collie (e : Nat)
  | gander
  | thonos
  | ctu (d : Nat)
  | hub
deriving DecidableEq, Repr

/-- A ring packet (Table 10-2) as an initiator forms it. `mask` lists the poisoned elements. -/
structure Pkt where
  init : Nat
  /-- source and destination, as (ring, stop) -/
  src : Nat × Nat
  dst : Nat × Nat
  tag : BitVec 6
  /-- KIND: nonet payload -/
  nonet : Bool
  len : BitVec 9
  addr : BitVec 38
  data : List (BitVec 9)
  mask : List Nat
  /-- VC: the priority channel (R300) -/
  vc : Bool
  /-- Table 10-4; 0 in every packet except a response -/
  status : Nat
  lap : BitVec 3
  /-- header check of R298: 0 good, 1 a single error, 2 a double error or a reserved value -/
  hdr : BitVec 2
deriving DecidableEq, Repr

/-- A memory BAR of a function (R63, Table 13-2). -/
inductive Bar where
  | bar0
  | bar2
  | bar4
deriving DecidableEq, Repr

def Bar.no : Bar → Nat
  | .bar0 => 0
  | .bar2 => 2
  | .bar4 => 4

/-- A severity report of a stack on the 32-octet burst at `o` (R274). -/
structure Sev where
  burst : Nat
  uncorrected : Bool
deriving DecidableEq, Repr

/-- What a packet that arrives carries or names, with what its header check finds: 0 good, 1 a single error that is corrected, 2 an
uncorrectable one (R298). -/
structure Arriving (α : Type) where
  what : α
  hdr : BitVec 2
deriving DecidableEq, Repr

/-- What a configuration write gives beside Command and MSI-X Enable: the Function Mask, the Device Control sizes as codes of 128 octets
shifted left, and the AER status bits that it clears (R382, Table 13-1). -/
structure CfgMore where
  fmask : Bool
  mps : Fin 3
  mrrs : Fin 6
  aer : BitVec 32
deriving DecidableEq, Repr

/-- One access of a bank port (R282, R283). -/
inductive BankAcc where
  | read (word : Nat)
  | write (word : Nat) (v : Word) (nonets : List Nat)
  | aadd (word : Nat) (v : Word)
  | aswap (word : Nat) (v : Word)
  /-- a posted write (R287) -/
  | post (word : Nat) (v : Word) (nonets : List Nat)
  /-- LDR and STC of a core (R181) -/
  | ldr (word core : Nat)
  | stc (word core : Nat) (v : Word)
deriving DecidableEq, Repr

/-- A request that an HBM controller performs (R270): the oldest queued write of a corner-turn channel, or a read or a write of a
requester (0 to 8 CTU, 9 to 11 gateway) at a die-local offset. -/
inductive HbmReq where
  | queued (p ch : Nat)
  | read (req o n : Nat) (sev : List Sev)
  | write (req o : Nat) (data : List (BitVec 9))
deriving DecidableEq, Repr

end Sys2Proof.Machine
end

