-- ==== Sys2Proof/Syntax.lean ====
section
/-!
DEFINITION. The commands of the block: one constructor per row of spec/opcode_table.json.
Operands: `k` a core, `who` the initiator of a register write, `die`, `p`, `ch` a corner-turn channel, `t`, `i` a cell, `e`, `h` a
collie channel or a DMA engine of a half, `f` a function or a fold, `b` a bank, `r`, `st` a ring stop, `jtag` the route to the debug port.
-/
namespace Sys2Proof
open Sys2Proof.Machine

inductive Instr where
  /-- REGISTER_WRITE (R53) -/
  | registerWrite (who : Who) (p : BitVec 12) (slot : BitVec 9) (v : Word)
  /-- EV_SET (R54) -/
  | evSet (who : Who) (p : BitVec 12) (ev : Fin 36)
  /-- EVL (R394) -/
  | evl (p : Arriving (BitVec 12))
  /-- PERTURB_APPLY (R55) -/
  | perturbApply (p : BitVec 12)
  /-- HOST_MEM_WRITE (R386) -/
  | hostMemWrite (f : Fin 4) (bar : Bar) (off : Nat) (data : List Octet) (poison : Bool)
  /-- HOST_MEM_READ (R386) -/
  | hostMemRead (f : Fin 4) (bar : Bar) (off : Nat) (len : Nat)
  /-- MSIX_TABLE_ACCESS (R384) -/
  | msixTableAccess (f : Fin 4) (off : Nat) (write : Option (List Octet)) (len : Nat)
  /-- BEAT_FRAME (R222) -/
  | beatFrame (f : Fin 960) (err : BitVec 168)
  /-- BEAT (R87) -/
  | beat (k : Fin 4)
  /-- FOLD_STALL (R91) -/
  | foldStall (f : Fin 960)
  /-- PORT_ACCESS (R85) -/
  | portAccess (die : Fin 4) (p : Fin 9) (ch : Fin 16)
  /-- PLANE_CLEAR_DONE (R83) -/
  | planeClearDone
  /-- REDUCTION_DELIVER (R40) -/
  | reductionDeliver (k : Fin 4)
  /-- LOGIC (R111) -/
  | arrLogic (k : Fin 4)
  /-- RLOG (R112) -/
  | arrRlog (k : Fin 4)
  /-- ADD (R113) -/
  | arrAdd (k : Fin 4)
  /-- SUB (R113) -/
  | arrSub (k : Fin 4)
  /-- ADDC (R113) -/
  | arrAddc (k : Fin 4)
  /-- NEG (R113) -/
  | arrNeg (k : Fin 4)
  /-- ADDS (R113) -/
  | arrAdds (k : Fin 4)
  /-- SUBS (R113) -/
  | arrSubs (k : Fin 4)
  /-- SHL (R115) -/
  | arrShl (k : Fin 4)
  /-- SHR (R115) -/
  | arrShr (k : Fin 4)
  /-- ROT (R115) -/
  | arrRot (k : Fin 4)
  /-- MUL (R116) -/
  | arrMul (k : Fin 4)
  /-- DIV (R116) -/
  | arrDiv (k : Fin 4)
  /-- GADD (R118) -/
  | arrGadd (k : Fin 4)
  /-- GSUB (R118) -/
  | arrGsub (k : Fin 4)
  /-- GADDS (R118) -/
  | arrGadds (k : Fin 4)
  /-- GNEG (R118) -/
  | arrGneg (k : Fin 4)
  /-- GSHL (R119) -/
  | arrGshl (k : Fin 4)
  /-- GSHR (R119) -/
  | arrGshr (k : Fin 4)
  /-- GROT (R119) -/
  | arrGrot (k : Fin 4)
  /-- GMUL (R120) -/
  | arrGmul (k : Fin 4)
  /-- GDIV (R120) -/
  | arrGdiv (k : Fin 4)
  /-- CMP (R122) -/
  | arrCmp (k : Fin 4)
  /-- CMPS (R122) -/
  | arrCmps (k : Fin 4)
  /-- GCMP (R123) -/
  | arrGcmp (k : Fin 4)
  /-- GCMPS (R123) -/
  | arrGcmps (k : Fin 4)
  /-- MAX (R124) -/
  | arrMax (k : Fin 4)
  /-- MIN (R124) -/
  | arrMin (k : Fin 4)
  /-- MSET (R125) -/
  | arrMset (k : Fin 4)
  /-- MLD (R125) -/
  | arrMld (k : Fin 4)
  /-- MST (R125) -/
  | arrMst (k : Fin 4)
  /-- MAND (R125) -/
  | arrMand (k : Fin 4)
  /-- MPUSH (R126) -/
  | arrMpush (k : Fin 4)
  /-- MPOP (R126) -/
  | arrMpop (k : Fin 4)
  /-- MELSE (R126) -/
  | arrMelse (k : Fin 4)
  /-- MOVE (R127) -/
  | arrMove (k : Fin 4)
  /-- ROWB (R128) -/
  | arrRowb (k : Fin 4)
  /-- COLB (R128) -/
  | arrColb (k : Fin 4)
  /-- BCAST (R129) -/
  | arrBcast (k : Fin 4)
  /-- GBCAST (R129) -/
  | arrGbcast (k : Fin 4)
  /-- FADD (R121) -/
  | arrFadd (k : Fin 4)
  /-- FSUB (R121) -/
  | arrFsub (k : Fin 4)
  /-- FMUL (R121) -/
  | arrFmul (k : Fin 4)
  /-- FDIV (R121) -/
  | arrFdiv (k : Fin 4)
  /-- FMA (R157) -/
  | arrFma (k : Fin 4)
  /-- FCMP (R158) -/
  | arrFcmp (k : Fin 4)
  /-- BELL (R130) -/
  | arrBell (k : Fin 4)
  /-- COUNT (R130) -/
  | arrCount (k : Fin 4)
  /-- FIRST (R130) -/
  | arrFirst (k : Fin 4)
  /-- TWIST (R133) -/
  | arrTwist (k : Fin 4)
  /-- PFENCE (R109) -/
  | arrPfence (k : Fin 4)
  /-- PRES (R108) -/
  | arrPres (k : Fin 4)
  /-- ALU_ADD (R170) -/
  | aluAdd (k : Fin 4)
  /-- ALU_SUB (R170) -/
  | aluSub (k : Fin 4)
  /-- ALU_ADDC (R170) -/
  | aluAddc (k : Fin 4)
  /-- ALU_SUBC (R170) -/
  | aluSubc (k : Fin 4)
  /-- ALU_NEG (R170) -/
  | aluNeg (k : Fin 4)
  /-- ALU_AND (R170) -/
  | aluAnd (k : Fin 4)
  /-- ALU_OR (R170) -/
  | aluOr (k : Fin 4)
  /-- ALU_XOR (R170) -/
  | aluXor (k : Fin 4)
  /-- ALU_ANDN (R170) -/
  | aluAndn (k : Fin 4)
  /-- ALU_ORN (R170) -/
  | aluOrn (k : Fin 4)
  /-- ALU_XNOR (R170) -/
  | aluXnor (k : Fin 4)
  /-- ALU_SLT (R170) -/
  | aluSlt (k : Fin 4)
  /-- ALU_SLTU (R170) -/
  | aluSltu (k : Fin 4)
  /-- ALU_MIN (R170) -/
  | aluMin (k : Fin 4)
  /-- ALU_MAX (R170) -/
  | aluMax (k : Fin 4)
  /-- ALU_MINU (R170) -/
  | aluMinu (k : Fin 4)
  /-- ALU_MAXU (R170) -/
  | aluMaxu (k : Fin 4)
  /-- SHIFT_SHL (R171) -/
  | shiftShl (k : Fin 4)
  /-- SHIFT_SHR (R171) -/
  | shiftShr (k : Fin 4)
  /-- SHIFT_SAR (R171) -/
  | shiftSar (k : Fin 4)
  /-- SHIFT_ROL (R171) -/
  | shiftRol (k : Fin 4)
  /-- SHIFT_ROR (R171) -/
  | shiftRor (k : Fin 4)
  /-- MULDIV_MUL (R172) -/
  | muldivMul (k : Fin 4)
  /-- MULDIV_MULU (R172) -/
  | muldivMulu (k : Fin 4)
  /-- MULDIV_MULF (R172) -/
  | muldivMulf (k : Fin 4)
  /-- MULDIV_MULFU (R172) -/
  | muldivMulfu (k : Fin 4)
  /-- MULDIV_DIV (R172) -/
  | muldivDiv (k : Fin 4)
  /-- MULDIV_DIVU (R172) -/
  | muldivDivu (k : Fin 4)
  /-- MULDIV_DIVD (R172) -/
  | muldivDivd (k : Fin 4)
  /-- MULDIV_DIVDU (R172) -/
  | muldivDivdu (k : Fin 4)
  /-- FPU_FADD (R174) -/
  | fpuFadd (k : Fin 4)
  /-- FPU_FSUB (R174) -/
  | fpuFsub (k : Fin 4)
  /-- FPU_FMUL (R174) -/
  | fpuFmul (k : Fin 4)
  /-- FPU_FDIV (R174) -/
  | fpuFdiv (k : Fin 4)
  /-- FPU_FMA (R174) -/
  | fpuFma (k : Fin 4)
  /-- FPU_FCMP (R174) -/
  | fpuFcmp (k : Fin 4)
  /-- FPU_FNEG (R174) -/
  | fpuFneg (k : Fin 4)
  /-- FPU_FABS (R174) -/
  | fpuFabs (k : Fin 4)
  /-- FCVT_INT_TO_BINARY32 (R175) -/
  | fcvtIntToBinary32 (k : Fin 4)
  /-- FCVT_INT_TO_BINARY64 (R175) -/
  | fcvtIntToBinary64 (k : Fin 4)
  /-- FCVT_BINARY32_TO_INT (R175) -/
  | fcvtBinary32ToInt (k : Fin 4)
  /-- FCVT_BINARY64_TO_INT (R175) -/
  | fcvtBinary64ToInt (k : Fin 4)
  /-- FCVT_BINARY32_TO_BINARY64 (R175) -/
  | fcvtBinary32ToBinary64 (k : Fin 4)
  /-- FCVT_BINARY64_TO_BINARY32 (R175) -/
  | fcvtBinary64ToBinary32 (k : Fin 4)
  /-- LDR (R180) -/
  | scLdr (k : Fin 4)
  /-- STC (R181) -/
  | scStc (k : Fin 4)
  /-- AADD (R180) -/
  | scAadd (k : Fin 4)
  /-- ASWAP (R180) -/
  | scAswap (k : Fin 4)
  /-- ADDI (R173) -/
  | scAddi (k : Fin 4)
  /-- ANDI (R173) -/
  | scAndi (k : Fin 4)
  /-- ORI (R173) -/
  | scOri (k : Fin 4)
  /-- XORI (R173) -/
  | scXori (k : Fin 4)
  /-- SLTI (R173) -/
  | scSlti (k : Fin 4)
  /-- SLTIU (R173) -/
  | scSltiu (k : Fin 4)
  /-- LUI (R173) -/
  | scLui (k : Fin 4)
  /-- LDN (R176) -/
  | scLdn (k : Fin 4)
  /-- LDNS (R176) -/
  | scLdns (k : Fin 4)
  /-- LDH (R176) -/
  | scLdh (k : Fin 4)
  /-- LDHS (R176) -/
  | scLdhs (k : Fin 4)
  /-- LDW (R176) -/
  | scLdw (k : Fin 4)
  /-- LDD (R176) -/
  | scLdd (k : Fin 4)
  /-- STN (R176) -/
  | scStn (k : Fin 4)
  /-- STH (R176) -/
  | scSth (k : Fin 4)
  /-- STW (R176) -/
  | scStw (k : Fin 4)
  /-- STD (R176) -/
  | scStd (k : Fin 4)
  /-- BEQ (R182) -/
  | scBeq (k : Fin 4)
  /-- BNE (R182) -/
  | scBne (k : Fin 4)
  /-- BLT (R182) -/
  | scBlt (k : Fin 4)
  /-- BGE (R182) -/
  | scBge (k : Fin 4)
  /-- BLTU (R182) -/
  | scBltu (k : Fin 4)
  /-- BGEU (R182) -/
  | scBgeu (k : Fin 4)
  /-- J (R182) -/
  | scJ (k : Fin 4)
  /-- JAL (R182) -/
  | scJal (k : Fin 4)
  /-- JALR (R182) -/
  | scJalr (k : Fin 4)
  /-- LOOP (R183) -/
  | scLoop (k : Fin 4)
  /-- NOP (R184) -/
  | scNop (k : Fin 4)
  /-- MFS (R184) -/
  | scMfs (k : Fin 4)
  /-- MTS (R165) -/
  | scMts (k : Fin 4)
  /-- TRAP (R184) -/
  | scTrap (k : Fin 4)
  /-- RTI (R197) -/
  | scRti (k : Fin 4)
  /-- WAIT (R185) -/
  | scWait (k : Fin 4)
  /-- FENCE (R178) -/
  | scFence (k : Fin 4)
  /-- IFENCE (R179) -/
  | scIfence (k : Fin 4)
  /-- AFENCE (R184) -/
  | scAfence (k : Fin 4)
  /-- BRK (R184) -/
  | scBrk (k : Fin 4)
  /-- COP (R191) -/
  | scCop (k : Fin 4)
  /-- COP_TIMEOUT (R192) -/
  | copTimeout (k : Fin 4)
  /-- INTERRUPT_ENTRY (R198) -/
  | interruptEntry (k : Fin 4)
  /-- MACHINE_CHECK_ENTRY (R200) -/
  | machineCheckEntry (k : Fin 4)
  /-- BW_RUN_RELEASE (R203) -/
  | bwRunRelease (who : Who) (k : Fin 4)
  /-- BW_RUN_STOP (R536) -/
  | bwRunStop (who : Who) (k : Fin 4)
  /-- CORE_RESET_HOLD (R166) -/
  | coreResetHold (k : Fin 4)
  /-- WATCHDOG_EXPIRY (R206) -/
  | watchdogExpiry (k : Fin 4)
  /-- WDG_KICK (R205) -/
  | wdgKick (who : Who) (k : Fin 4)
  /-- WDG_PERIOD_WRITE (R205) -/
  | wdgPeriodWrite (who : Who) (k : Fin 4) (v : Word)
  /-- CSDATA_COMMIT (R210) -/
  | csdataCommit (who : Who) (k : Fin 4) (v : Word)
  /-- MSEQ_START (R216) -/
  | mseqStart (k : Fin 4)
  /-- CONT (R219) -/
  | microCont (k : Fin 4)
  /-- CALL (R217) -/
  | microCall (k : Fin 4)
  /-- RET (R217) -/
  | microRet (k : Fin 4)
  /-- END (R218) -/
  | microEnd (k : Fin 4)
  /-- WAITB (R220) -/
  | microWaitb (k : Fin 4)
  /-- PREEMPT (R227) -/
  | preempt (who : Who) (k : Fin 4)
  /-- PREEMPT_TAKE_EFFECT (R227) -/
  | preemptTakeEffect (k : Fin 4)
  /-- MSEQ_RESUME (R230) -/
  | mseqResume (who : Who) (k : Fin 4)
  /-- MSEQ_DISCARD (R230) -/
  | mseqDiscard (who : Who) (k : Fin 4)
  /-- MSEQ_SAVE (R230) -/
  | mseqSave (who : Who) (k : Fin 4)
  /-- MSEQ_RESTORE (R230) -/
  | mseqRestore (who : Who) (k : Fin 4)
  /-- VOTE_COMPARE (R233) -/
  | voteCompare (cop : Bool)
  /-- VOTE_WINDOW_EXPIRY (R233) -/
  | voteWindowExpiry (cop : Bool)
  /-- CTU_CHSTART (R251) -/
  | ctuChstart (who : Who) (die : Fin 4) (p : Fin 9) (mask : BitVec 16)
  /-- CTU_CHABORT (R257) -/
  | ctuChabort (who : Who) (die : Fin 4) (p : Fin 9) (mask : BitVec 16)
  /-- SLOT_GRANT (R252) -/
  | slotGrant (die : Fin 4) (p : Fin 9) (ch : Fin 16)
  /-- DESCRIPTOR_FETCH_DONE (R249) -/
  | descriptorFetchDone (die : Fin 4) (p : Fin 9) (ch : Fin 16)
  /-- RESERVATION_PLACE (R254) -/
  | reservationPlace (die : Fin 4) (p : Fin 9) (ch : Fin 16)
  /-- STAGING_FILL (R258) -/
  | stagingFill (die : Fin 4) (p : Fin 9) (ch : Fin 16) (sev : List Sev)
  /-- RESERVATION_CLEAR (R254) -/
  | reservationClear (die : Fin 4) (p : Fin 9) (ch : Fin 16)
  /-- CHANNEL_COMPLETE (R256) -/
  | channelComplete (die : Fin 4) (p : Fin 9) (ch : Fin 16)
  /-- CTU_GONE (R263) -/
  | ctuGone (die : Fin 4) (p : Fin 9) (ch : Fin 16)
  /-- HBM_REQUEST (R270) -/
  | hbmRequest (die : Fin 4) (q : HbmReq)
  /-- HBM_REFRESH (R275) -/
  | hbmRefresh (die : Fin 4) (m : Fin 2) (bank : BitVec 8)
  /-- BANK_ACCESS (R282) -/
  | bankAccess (b : Fin 9) (owner : Option BankAcc) (ring : Option BankAcc)
  /-- BTEST_REGION (R285) -/
  | btestRegion (b : Fin 9) (fails : List (Nat × Nat))
  /-- BANK_PDOWN (R287) -/
  | bankPdown (who : Who) (b : Fin 9)
  /-- BANK_OFF (R287) -/
  | bankOff (b : Fin 9)
  /-- BANK_WAKE (R288) -/
  | bankWake (who : Who) (b : Fin 9)
  /-- BANK_CLEAR_DONE (R288) -/
  | bankClearDone (b : Fin 9)
  /-- SECURE_WIPE_DONE (R289) -/
  | secureWipeDone
  /-- RING_RD (R297) -/
  | ringRd (q : Pkt) (sev : List Sev)
  /-- RING_WR (R297) -/
  | ringWr (q : Pkt) (sev : List Sev)
  /-- RING_WRP (R297) -/
  | ringWrp (q : Pkt) (sev : List Sev)
  /-- RING_AADD (R297) -/
  | ringAadd (q : Pkt)
  /-- RING_ASWAP (R297) -/
  | ringAswap (q : Pkt)
  /-- RING_LDR (R297) -/
  | ringLdr (q : Pkt)
  /-- RING_STC (R297) -/
  | ringStc (q : Pkt)
  /-- RING_COP (R344) -/
  | ringCop (k : Arriving (Fin 4))
  /-- RING_DATA (R307) -/
  | ringData (r : Fin 3) (st : Arriving (Fin 16)) (lat : Nat)
  /-- RING_ACK (R307) -/
  | ringAck (r : Fin 3) (st : Arriving (Fin 16)) (lat : Nat)
  /-- RING_COPR (R191) -/
  | ringCopr (k : Arriving (Fin 4)) (lat : Nat)
  /-- STRM (R304) -/
  | strm (q : Pkt)
  /-- ORDERING_PROBE (R308) -/
  | orderingProbe (q : Pkt)
  /-- XR_CROSSING (R294) -/
  | xrCrossing (opc : BitVec 4) (q : Pkt)
  /-- STOP_RECONF_SET (R310) -/
  | stopReconfSet (who : Who) (r : Fin 3) (st : Fin 16)
  /-- STOP_ENTER_PASS (R310) -/
  | stopEnterPass (r : Fin 3) (st : Fin 16)
  /-- STOP_RECONF_CLEAR (R311) -/
  | stopReconfClear (who : Who) (r : Fin 3) (st : Fin 16)
  /-- PASS_THROUGH (R312) -/
  | passThrough (r : Fin 3) (st : Arriving (Fin 16))
  /-- REQUEST_TIMEOUT (R315) -/
  | requestTimeout (r : Fin 3) (st : Fin 16) (init : Nat) (tag : BitVec 6)
  /-- GNTTAB_APPLY (R303) -/
  | gnttabApply (r : Fin 3)
  /-- TILE_LOAD (R341) -/
  | tileLoad (who : Who) (t : Fin 8)
  /-- TILE_LOAD_DONE (R341) -/
  | tileLoadDone (t : Fin 8)
  /-- TILE_UNLOAD (R339) -/
  | tileUnload (who : Who) (t : Fin 8)
  /-- TILE_GO (R343) -/
  | tileGo (who : Who) (t : Fin 8) (mask : BitVec 8)
  /-- CELL_PASS (R323) -/
  | cellPass (t : Fin 8) (i : Fin 144)
  /-- CELL_ADD (R323) -/
  | cellAdd (t : Fin 8) (i : Fin 144)
  /-- CELL_ADDC (R323) -/
  | cellAddc (t : Fin 8) (i : Fin 144)
  /-- CELL_SUB (R323) -/
  | cellSub (t : Fin 8) (i : Fin 144)
  /-- CELL_SUBC (R323) -/
  | cellSubc (t : Fin 8) (i : Fin 144)
  /-- CELL_AND (R323) -/
  | cellAnd (t : Fin 8) (i : Fin 144)
  /-- CELL_OR (R323) -/
  | cellOr (t : Fin 8) (i : Fin 144)
  /-- CELL_XOR (R323) -/
  | cellXor (t : Fin 8) (i : Fin 144)
  /-- CELL_ANDN (R323) -/
  | cellAndn (t : Fin 8) (i : Fin 144)
  /-- CELL_SHL (R323) -/
  | cellShl (t : Fin 8) (i : Fin 144)
  /-- CELL_SHR (R323) -/
  | cellShr (t : Fin 8) (i : Fin 144)
  /-- CELL_SAR (R323) -/
  | cellSar (t : Fin 8) (i : Fin 144)
  /-- CELL_ROL (R323) -/
  | cellRol (t : Fin 8) (i : Fin 144)
  /-- CELL_LIT (R323) -/
  | cellLit (t : Fin 8) (i : Fin 144)
  /-- CELL_LITH (R323) -/
  | cellLith (t : Fin 8) (i : Fin 144)
  /-- CELL_EQ (R323) -/
  | cellEq (t : Fin 8) (i : Fin 144)
  /-- CELL_LTU (R323) -/
  | cellLtu (t : Fin 8) (i : Fin 144)
  /-- CELL_LTS (R323) -/
  | cellLts (t : Fin 8) (i : Fin 144)
  /-- CELL_MULL (R323) -/
  | cellMull (t : Fin 8) (i : Fin 144)
  /-- CELL_MULH (R323) -/
  | cellMulh (t : Fin 8) (i : Fin 144)
  /-- CELL_SEL (R329) -/
  | cellSel (t : Fin 8) (i : Fin 144)
  /-- CELL_MXC (R330) -/
  | cellMxc (t : Fin 8) (i : Fin 144)
  /-- CELL_EXT (R323) -/
  | cellExt (t : Fin 8) (i : Fin 144)
  /-- CELL_DEP (R323) -/
  | cellDep (t : Fin 8) (i : Fin 144)
  /-- CELL_POPC (R323) -/
  | cellPopc (t : Fin 8) (i : Fin 144)
  /-- CPOK (R345) -/
  | putCpok (t : Fin 8) (i : Fin 144)
  /-- CPERR (R345) -/
  | putCperr (t : Fin 8) (i : Fin 144)
  /-- SOUT (R345) -/
  | putSout (t : Fin 8) (i : Fin 144)
  /-- SPOP (R345) -/
  | putSpop (t : Fin 8) (i : Fin 144)
  /-- SOUTF (R345) -/
  | putSoutf (t : Fin 8) (i : Fin 144)
  /-- COP_CURRENT (R344) -/
  | copCurrent (t : Fin 8)
  /-- TILE_UNFREEZE (R348) -/
  | tileUnfreeze (t : Fin 8)
  /-- TREE_CLOCK_CHANGE (R335) -/
  | treeClockChange (t : Fin 8) (r : Fin 4)
  /-- TILE_DOMAIN_OFF (R424) -/
  | tileDomainOff (who : Who) (t : Fin 8)
  /-- TILE_DOMAIN_ON (R424) -/
  | tileDomainOn (who : Who) (t : Fin 8)
  /-- COLLIE_DOMAIN_OFF (R424) -/
  | collieDomainOff (who : Who) (e : Fin 8)
  /-- COLLIE_DOMAIN_ON (R424) -/
  | collieDomainOn (who : Who) (e : Fin 8)
  /-- COLLIE_CHSTART (R360) -/
  | collieChstart (who : Who) (e : Fin 8) (mask : BitVec 16)
  /-- COLLIE_ENTRY_LOADED (R359) -/
  | collieEntryLoaded (e : Fin 8) (h : Fin 16)
  /-- COLLIE_SHO (R364) -/
  | collieSho (e : Fin 8) (h : Fin 16)
  /-- COLLIE_SHI (R364) -/
  | collieShi (e : Fin 8) (h : Fin 16)
  /-- COLLIE_SHB (R364) -/
  | collieShb (e : Fin 8) (h : Fin 16)
  /-- COLLIE_PIN (R369) -/
  | colliePin (e : Fin 8) (h : Fin 16)
  /-- COLLIE_WAITP (R371) -/
  | collieWaitp (e : Fin 8) (h : Fin 16)
  /-- COLLIE_WAITF (R367) -/
  | collieWaitf (e : Fin 8) (h : Fin 16)
  /-- COLLIE_WAITE (R367) -/
  | collieWaite (e : Fin 8) (h : Fin 16)
  /-- COLLIE_SETF (R367) -/
  | collieSetf (e : Fin 8) (h : Fin 16)
  /-- COLLIE_AT (R370) -/
  | collieAt (e : Fin 8) (h : Fin 16)
  /-- COLLIE_LDI (R367) -/
  | collieLdi (e : Fin 8) (h : Fin 16)
  /-- COLLIE_ADDI (R367) -/
  | collieAddi (e : Fin 8) (h : Fin 16)
  /-- COLLIE_JMP (R368) -/
  | collieJmp (e : Fin 8) (h : Fin 16)
  /-- COLLIE_LOOP (R368) -/
  | collieLoop (e : Fin 8) (h : Fin 16)
  /-- COLLIE_LOOPG (R368) -/
  | collieLoopg (e : Fin 8) (h : Fin 16)
  /-- COLLIE_PULL (R367) -/
  | colliePull (e : Fin 8) (h : Fin 16)
  /-- COLLIE_PUSH (R367) -/
  | colliePush (e : Fin 8) (h : Fin 16)
  /-- COLLIE_MOV (R367) -/
  | collieMov (e : Fin 8) (h : Fin 16)
  /-- COLLIE_ADD (R367) -/
  | collieAdd (e : Fin 8) (h : Fin 16)
  /-- COLLIE_SUB (R367) -/
  | collieSub (e : Fin 8) (h : Fin 16)
  /-- COLLIE_AND (R367) -/
  | collieAnd (e : Fin 8) (h : Fin 16)
  /-- COLLIE_OR (R367) -/
  | collieOr (e : Fin 8) (h : Fin 16)
  /-- COLLIE_XOR (R367) -/
  | collieXor (e : Fin 8) (h : Fin 16)
  /-- COLLIE_NOT (R367) -/
  | collieNot (e : Fin 8) (h : Fin 16)
  /-- COLLIE_STAMPW (R371) -/
  | collieStampw (e : Fin 8) (h : Fin 16)
  /-- COLLIE_STAMPA (R371) -/
  | collieStampa (e : Fin 8) (h : Fin 16)
  /-- COLLIE_TAKE (R365) -/
  | collieTake (e : Fin 8) (h : Fin 16)
  /-- COLLIE_SIG (R367) -/
  | collieSig (e : Fin 8) (h : Fin 16)
  /-- COLLIE_END (R375) -/
  | collieEnd (e : Fin 8) (h : Fin 16)
  /-- COLLIE_TIME (R367) -/
  | collieTime (e : Fin 8) (h : Fin 16)
  /-- COLLIE_FLUSHO (R367) -/
  | collieFlusho (e : Fin 8) (h : Fin 16)
  /-- COLLIE_CMPU (R367) -/
  | collieCmpu (e : Fin 8) (h : Fin 16)
  /-- COLLIE_STEP (R365) -/
  | collieStep (e : Fin 8) (h : Fin 16) (ext : BitVec 9)
  /-- WAIT_SATISFIED (R371) -/
  | waitSatisfied (e : Fin 8) (h : Fin 16) (ext : BitVec 9)
  /-- AT_TIME_REACHED (R370) -/
  | atTimeReached (e : Fin 8) (h : Fin 16)
  /-- TCMP_EVENT (R372) -/
  | tcmpEvent (e : Fin 8) (i : Fin 4)
  /-- COLLIE_DBELL (R372) -/
  | collieDbell (who : Who) (e : Fin 8) (ch : Fin 16) (bits : BitVec 8)
  /-- COLLIE_SYNC (R372) -/
  | collieSync (who : Who) (e : Fin 8) (v : Word)
  /-- COLLIE_SWAP (R374) -/
  | collieSwap (who : Who) (e : Fin 8) (ch : Fin 16) (pc : BitVec 11)
  /-- COLLIE_FORCED_SWAP (R374) -/
  | collieForcedSwap (who : Who) (e : Fin 8) (ch : Fin 16) (pc : BitVec 11)
  /-- SWAP_TAKE_EFFECT (R374) -/
  | swapTakeEffect (e : Fin 8) (h : Fin 16)
  /-- COLLIE_CHSTOP (R375) -/
  | collieChstop (who : Who) (e : Fin 8) (mask : BitVec 16)
  /-- COLLIE_ARM (R377) -/
  | collieArm (who : Who) (e : Fin 8) (v : Word)
  /-- SYNC_START (R377) -/
  | syncStart (e : Fin 8)
  /-- PSDATA_WRITE (R373) -/
  | psdataWrite (who : Who) (e : Fin 8) (v : Word)
  /-- QFLUSH (R362) -/
  | qflush (who : Who) (e : Fin 8) (ch : Fin 16)
  /-- COLLIE_WINDOW_WRITE (R361) -/
  | collieWindowWrite (who : Who) (e : Fin 8) (h : Fin 16) (ws : List Word)
  /-- COLLIE_WINDOW_READ (R361) -/
  | collieWindowRead (who : Who) (e : Fin 8) (h : Fin 16)
  /-- LINK_TRAINING_DONE (R381) -/
  | linkTrainingDone (h : Fin 2) (gen : BitVec 3) (width : Nat) (up : Bool)
  /-- LINK_DOWN (R388) -/
  | linkDown (h : Fin 2) (landed : List Bool)
  /-- PERST (R388) -/
  | perst (h : Fin 2) (landed : List Bool)
  /-- FLR (R388) -/
  | flr (f : Fin 4) (landed : List Bool)
  /-- BAR2_RESIZE (R385) -/
  | bar2Resize (f : Fin 4) (sz : Fin 9)
  /-- RETRAIN (R398) -/
  | retrain (who : Who) (h : Fin 2)
  /-- D3_ENTRY (R399) -/
  | d3Entry (f : Fin 4)
  /-- D0_RETURN (R391) -/
  | d0Return (f : Fin 4)
  /-- DMA_DESCRIPTOR_START (R389) -/
  | dmaDescriptorStart (h : Fin 2) (e : Fin 4)
  /-- DMA_DESCRIPTOR_COMPLETE (R393) -/
  | dmaDescriptorComplete (h : Fin 2) (e : Fin 4) (host : List (BitVec 9)) (hostErr : Bool) (landed : List Bool)
  /-- DMA_MARKER_POLL (R392) -/
  | dmaMarkerPoll (h : Fin 2) (e : Fin 4)
  /-- DMA_HOST_TIMEOUT (R391) -/
  | dmaHostTimeout (h : Fin 2) (e : Fin 4) (host : List (BitVec 9)) (landed : List Bool)
  /-- DMA_ENABLE (R389) -/
  | dmaEnable (who : Who) (h : Fin 2) (e : Fin 4)
  /-- DMA_DISABLE (R389) -/
  | dmaDisable (who : Who) (h : Fin 2) (e : Fin 4) (host : List (BitVec 9)) (landed : List Bool)
  /-- DQBASE_WRITE (R389) -/
  | dqbaseWrite (who : Who) (h : Fin 2) (e : Fin 4) (v : Word)
  /-- DQCFG_SIZE_WRITE (R389) -/
  | dqcfgSizeWrite (who : Who) (h : Fin 2) (e : Fin 4) (size : BitVec 12)
  /-- DQTAIL_WRITE (R389) -/
  | dqtailWrite (who : Who) (h : Fin 2) (e : Fin 4) (tail : BitVec 12)
  /-- EVH_RESCAN (R395) -/
  | evhRescan (who : Who)
  /-- EVH_RESCAN_DONE (R395) -/
  | evhRescanDone
  /-- EVH_VACK (R397) -/
  | evhVack (who : Who) (vec : BitVec 8)
  /-- MSIX_PENDING_SEND (R397) -/
  | msixPendingSend (vec : BitVec 8)
  /-- EVH_TIMER_ARM (R394) -/
  | evhTimerArm (who : Who) (i : Fin 4) (v : Word)
  /-- EVH_TIMER_EXPIRY (R394) -/
  | evhTimerExpiry (i : Fin 4)
  /-- RTDATA_WRITE (R396) -/
  | rtdataWrite (who : Who) (v : Word)
  /-- MODE_REQ_LINKED (R402) -/
  | modeReqLinked (who : Who)
  /-- MODE_REQ_SPLIT (R402) -/
  | modeReqSplit (who : Who)
  /-- MODE_REQ_MAINTENANCE (R408) -/
  | modeReqMaintenance (who : Who)
  /-- MODE_REQ_QUIESCENT (R410) -/
  | modeReqQuiescent (who : Who)
  /-- MODE_REQ_OFF (R409) -/
  | modeReqOff (who : Who)
  /-- MODE_CHANGE_COMPLETE (R405) -/
  | modeChangeComplete
  /-- POWER_ON_RESET (R413) -/
  | powerOnReset
  /-- SYS_RST_ASSERT (R517) -/
  | sysRstAssert
  /-- HUB_DEVRST (R419) -/
  | hubDevrst (who : Who)
  /-- SUPPLY_RESET (R428) -/
  | supplyReset (r : Fin 14) (mv : BitVec 12) (dur : BitVec 24)
  /-- THERMAL_TRIP (R436) -/
  | thermalTrip
  /-- BOOT (R415) -/
  | boot (facts : BootFacts)
  /-- RMAP_COMMIT (R417) -/
  | rmapCommit (who : Who)
  /-- RMAP_COMMIT_DONE (R417) -/
  | rmapCommitDone
  /-- FTEST_START (R459) -/
  | ftestStart (who : Who)
  /-- FOLD_TEST_DONE (R459) -/
  | foldTestDone (found : BitVec 40)
  /-- SUPPLY_DIP_BEGIN (R425) -/
  | supplyDipBegin (r : Fin 14)
  /-- SUPPLY_DIP_END (R426) -/
  | supplyDipEnd (r : Fin 14) (mv : BitVec 12) (dur : BitVec 24)
  /-- CLOCK_RAMP_GROUP (R426) -/
  | clockRampGroup (r : Fin 14)
  /-- THERMAL_SAMPLE (R434) -/
  | thermalSample (rs : List (Nat × BitVec 8))
  /-- THROTTLE_STEP (R435) -/
  | throttleStep (i : Fin 1040)
  /-- DELAY_MEASUREMENT (R439) -/
  | delayMeasurement (i : Fin 1040) (d : BitVec 24)
  /-- FLOOR_TRIP (R440) -/
  | floorTrip (i : Fin 1040)
  /-- PLL_LOCK (R432) -/
  | pllLock (i : Fin 1040)
  /-- MCCMD_REISSUE (R457) -/
  | mccmdReissue (who : Who) (k : Fin 4)
  /-- MCCMD_FLUSH (R457) -/
  | mccmdFlush (who : Who) (k : Fin 4)
  /-- DEVINFO (R482) -/
  | devInfo
  /-- UPDATE (R481) -/
  | update (flash : BitVec 2)
  /-- ARBCOMMIT (R475) -/
  | arbCommit
  /-- LIFECYCLE (R477) -/
  | lifecycle
  /-- REVOKE (R474) -/
  | revoke
  /-- ATTEST (R483) -/
  | attest
  /-- DBGCHAL (R484) -/
  | dbgChal
  /-- DBGRESP (R484) -/
  | dbgResp
  /-- DBGPASS (R484) -/
  | dbgPass
  /-- RELOCK (R484) -/
  | relock
  /-- NONCE_EXPIRY (R484) -/
  | nonceExpiry
  /-- TAMPER_RESPONSE (R486) -/
  | tamperResponse (src : BitVec 2)
  /-- TAMPER_CLEAR (R486) -/
  | tamperClear (src : BitVec 2)
  /-- PORT_OWN_WRITE (R490) -/
  | portOwnWrite (jtag : Bool) (own : BitVec 2)
  /-- JTAG_UPDATE_DR (R491) -/
  | jtagUpdateDr (v : BitVec 303)
  /-- TAP_RESET (R490) -/
  | tapReset
  /-- GANDER_NOP (R492) -/
  | ganderNop (jtag : Bool) (mask : BitVec 4)
  /-- AUTH (R493) -/
  | auth (jtag : Bool) (mask : BitVec 4)
  /-- HALT (R495) -/
  | halt (jtag : Bool) (mask : BitVec 4)
  /-- DEBUG_HALT_ENTRY (R496) -/
  | debugHaltEntry (k : Fin 4)
  /-- GANDER_EVENT_INPUT (R495) -/
  | ganderEventInput
  /-- GANDER_RESUME (R499) -/
  | ganderResume (jtag : Bool) (mask : BitVec 4)
  /-- STEP (R500) -/
  | step (jtag : Bool) (mask : BitVec 4)
  /-- FEED (R501) -/
  | feed (jtag : Bool) (mask : BitVec 4)
  /-- RDREG (R503) -/
  | rdreg (jtag : Bool) (mask : BitVec 4)
  /-- WRREG (R503) -/
  | wrreg (jtag : Bool) (mask : BitVec 4)
  /-- MRD (R509) -/
  | mrd (jtag : Bool) (mask : BitVec 4)
  /-- MWR (R509) -/
  | mwr (jtag : Bool) (mask : BitVec 4)
  /-- GANDER_DEVRST (R492) -/
  | ganderDevrst (jtag : Bool) (mask : BitVec 4)
  /-- TERM_READ (R508) -/
  | termRead (jtag : Bool) (k : Fin 4)
  /-- TERM_WRITE (R508) -/
  | termWrite (jtag : Bool) (k : Fin 4) (v : Word)
  /-- MGMT_SELECT (R520) -/
  | mgmtSelect (i3c : Bool) (p : BitVec 16) (slot : BitVec 16)
  /-- MGMT_READ (R520) -/
  | mgmtRead (i3c : Bool)
  /-- I3C_DAA (R520) -/
  | i3cDaa (a : BitVec 7)
  /-- VDD_AON_LOSS (R428) -/
  | vddAonLoss
  /-- STACK_TEMPERATURE_REPORT (R275) -/
  | stackTemperatureReport (die : Fin 4) (m : Fin 2) (temp : BitVec 8) (hot : Bool)
  /-- CONFIGURATION_WRITE (R391) -/
  | configurationWrite (f : Fin 4) (bme : Bool) (mse : Bool) (msixEn : Bool) (more : CfgMore) (landed : List Bool)
  /-- UNSUPPORTED_REQUEST (R382) -/
  | unsupportedRequest (f : Fin 4)
  /-- UNASSIGNED_OPCODE (R168) -/
  | unassignedOpcode (k : Fin 4)
  /-- COLLIE_RESERVED_INSTRUCTION (R367) -/
  | collieReserved (e : Fin 8) (h : Fin 16)
  /-- RESERVED_SEQOP (R218) -/
  | reservedSeqop (k : Fin 4)
  /-- JTAG_UPDATE_IR (R529) -/
  | jtagUpdateIr (ir : BitVec 6) (testEnLow : Bool)
deriving DecidableEq, Repr

end Sys2Proof
end

