-- ==== Sys2Proof/Decode.lean ====
section
/-!
DEFINITION. Commands spelled by a word. spec/opcode_table.json gives no row any bits, so no word spells a command: the words that
the device itself decodes are those of its own engines (Machine/ScalarCode.lean, ArrayOps.lean, Micro.lean, Fabric.lean,
Collie.lean).
-/
namespace Sys2Proof

/-- The command that a word of the table spells: none. -/
def decodeTableWord (_nbits _w : Nat) : Option Instr := none

end Sys2Proof
end

