-- ==== Sys2Proof/Machine/Cells.lean ====
section
/-!
DEFINITION. The operations of the sparse maps that hold every storage of the device.
A map lists only what differs from a default, keys strictly rising, so equal storages are equal lists.
-/
namespace Sys2Proof.Machine

/-- What the map holds at key `k`; an unlisted key reads as `d k`. -/
def SMap.get {α : Type} (d : Nat → α) : SMap α → Nat → α
  | [], k => d k
  | (k', v) :: m, k => if k' = k then v else SMap.get d m k

/-- The map with key `k` listed at `v`. -/
def SMap.insert {α : Type} : SMap α → Nat → α → SMap α
  | [], k, v => [(k, v)]
  | (k', v') :: m, k, v =>
    if k < k' then (k, v) :: (k', v') :: m
    else if k = k' then (k, v) :: m
    else (k', v') :: SMap.insert m k v

/-- The map with every key that `p` names unlisted. -/
def SMap.drop {α : Type} (p : Nat → Bool) (m : SMap α) : SMap α :=
  m.filter (fun e => !p e.1)

/-- The map after a write of `v` at `k`: writing what an unlisted key reads as unlists the key. -/
def SMap.set {α : Type} [DecidableEq α] (d : Nat → α) (m : SMap α) (k : Nat) (v : α) : SMap α :=
  if v = d k then SMap.drop (fun k' => k' == k) m else SMap.insert m k v

/-- The map after one write for each entry of a list, in order. -/
def SMap.setAll {α : Type} [DecidableEq α] (d : Nat → α) (m : SMap α) (l : List (Nat × α)) : SMap α :=
  l.foldl (fun m e => SMap.set d m e.1 e.2) m

/-- Keys strictly rising above `lo`, and no value equal to the default. -/
def SMap.wfFrom {α : Type} [DecidableEq α] (d : Nat → α) : Nat → SMap α → Bool
  | _, [] => true
  | lo, (k, v) :: m => decide (lo ≤ k) && decide (v ≠ d k) && SMap.wfFrom d (k + 1) m

/-- The canonical form of a map. -/
def SMap.wf {α : Type} [DecidableEq α] (d : Nat → α) (m : SMap α) : Bool := SMap.wfFrom d 0 m

end Sys2Proof.Machine
end

