-- ==== Sys2Proof/Machine/Flags.lean ====
section
/-!
DEFINITION. Integer results and condition values (R134 to R145), at any width, as exact integers narrowed at the end.
The scalar core and the array take every integer result from here (R134).
-/
namespace Sys2Proof.Machine

/-- The signed reading of a `w`-bit value (R9). -/
def signedOf (w x : Nat) : Int := if w = 0 then 0 else if x < 2 ^ (w - 1) then (x : Int) else (x : Int) - (2 ^ w : Nat)

/-- The `w`-bit pattern of an integer. -/
def narrow (w : Nat) (i : Int) : Nat := (i % ((2 ^ w : Nat) : Int)).toNat

/-- V of R136: the exact signed result lies outside MN to MX. -/
def overflows (w : Nat) (i : Int) : Bool :=
  decide (i < -((2 ^ (w - 1) : Nat) : Int)) || decide (i ≥ ((2 ^ (w - 1) : Nat) : Int))

/-- The complement of a `w`-bit value. -/
def notW (w x : Nat) : Nat := 2 ^ w - 1 - x % 2 ^ w

/-- A result with its condition values. -/
structure IntRes where
  res : Nat
  c : Bool
  v : Bool
deriving DecidableEq, Repr

/-- `x + y + cin` at width `w`: the sum, the carry out of bit `w - 1` and V (R113, R136). -/
def addWith (w x y : Nat) (cin : Bool) : IntRes :=
  let s := x + y + cin.toNat
  { res := s % 2 ^ w, c := decide (2 ^ w ≤ s), v := overflows w (signedOf w x + signedOf w y + (cin.toNat : Int)) }

/-- The exact product in `2w` bits (R137). -/
def mulFull (signed : Bool) (w x y : Nat) : Nat :=
  if signed then narrow (2 * w) (signedOf w x * signedOf w y) else x * y

/-- The low product and its V (R138). -/
def mulLow (signed : Bool) (w x y : Nat) : IntRes :=
  if signed then
    let p := signedOf w x * signedOf w y
    { res := narrow w p, c := false, v := overflows w p }
  else { res := (x * y) % 2 ^ w, c := false, v := decide (2 ^ w ≤ x * y) }

/-- Quotient, remainder and V of a division by a divisor that is not zero (R139, R140). -/
def divRem (signed : Bool) (w a b : Nat) : Nat × Nat × Bool :=
  if signed then
    let x := signedOf w a
    let y := signedOf w b
    (narrow w (x.tdiv y), narrow w (x.tmod y), overflows w (x.tdiv y))
  else (a / b, a % b, false)

/-- Array division (R142): a zero divisor gives all ones, the dividend, DZ = 1 and V = 0. -/
def arrayDiv (signed : Bool) (w a b : Nat) : Nat × Nat × Bool × Bool :=
  if b = 0 then (2 ^ w - 1, a, true, false)
  else
    let d := divRem signed w a b
    (d.1, d.2.1, false, d.2.2)

/-- Shift left by a count taken in full (R144). -/
def shlW (w x s : Nat) : Nat := if w ≤ s then 0 else (x <<< s) % 2 ^ w
/-- Shift right; `fill` is the bit shifted in (R144). -/
def shrW (fill : Bool) (w x s : Nat) : Nat :=
  let n := min s w
  (x >>> n) + (if fill then (2 ^ n - 1) <<< (w - n) else 0)
/-- Rotate left by a count taken modulo `w` (R144). -/
def rolW (w x s : Nat) : Nat :=
  if w = 0 then 0 else
    let q := s % w
    ((x <<< q) + (x >>> (w - q))) % 2 ^ w
/-- Rotate right by a count taken modulo `w` (R144). -/
def rorW (w x s : Nat) : Nat := if w = 0 then 0 else rolW w x (w - s % w)

/-- The relations of Table 4-2, REL = 0 to 5, on integers. -/
def relHolds (rel : Nat) (x y : Int) : Bool :=
  match rel with
  | 0 => decide (x = y)
  | 1 => decide (x ≠ y)
  | 2 => decide (x < y)
  | 3 => decide (x ≤ y)
  | 4 => decide (y < x)
  | 5 => decide (y ≤ x)
  | _ => false

/-- An operand read as signed or unsigned. -/
def readInt (signed : Bool) (w x : Nat) : Int := if signed then signedOf w x else (x : Int)

end Sys2Proof.Machine
end

