-- ==== Sys2Proof/Machine/Float.lean ====
section
/-!
DEFINITION. IEEE 754 binary32 and binary64 as R146 to R160 give them: exact results, rounded once, and the five flags.
The scalar core and the array take every floating-point result from here (R134).
-/
namespace Sys2Proof.Machine

/-- A binary format: fraction bits and exponent bits. -/
structure Fmt where
  frac : Nat
  exp : Nat
deriving DecidableEq, Repr

def fmt32 : Fmt := ⟨23, 8⟩
def fmt64 : Fmt := ⟨52, 11⟩

namespace Fmt
def width (f : Fmt) : Nat := f.frac + f.exp + 1
def maxExp (f : Fmt) : Nat := 2 ^ f.exp - 1
/-- Exponent of the smallest normal magnitude: −126 or −1022 (R152). -/
def emin (f : Fmt) : Int := 2 - ((2 ^ (f.exp - 1) : Nat) : Int)
def infBits (f : Fmt) : Nat := f.maxExp <<< f.frac
def signBit (f : Fmt) : Nat := 2 ^ (f.frac + f.exp)
/-- The default NaN of R154. -/
def defaultNaN (f : Fmt) : Nat := f.infBits + 2 ^ (f.frac - 1)
end Fmt

/-- The exception flags in the order of FPSW[4:0] (Table 5-2). -/
structure FFlags where
  nv : Bool := false
  dz : Bool := false
  of : Bool := false
  uf : Bool := false
  nx : Bool := false
deriving DecidableEq, Repr

def FFlags.or (a b : FFlags) : FFlags :=
  ⟨a.nv || b.nv, a.dz || b.dz, a.of || b.of, a.uf || b.uf, a.nx || b.nx⟩
def FFlags.any (a : FFlags) : Bool := a.nv || a.dz || a.of || a.uf || a.nx
/-- The flags as FPSW[4:0]. -/
def FFlags.bits (a : FFlags) : Nat :=
  a.nv.toNat * 16 + a.dz.toNat * 8 + a.of.toNat * 4 + a.uf.toNat * 2 + a.nx.toNat

/-- A result with its flags. -/
structure FRes where
  bits : Nat
  fl : FFlags
deriving DecidableEq, Repr

/-- What an encoding denotes: a NaN, an infinity, or `m × 2^e` with a sign. -/
inductive FVal where
  | nan (signalling : Bool)
  | inf (neg : Bool)
  | fin (neg : Bool) (m : Nat) (e : Int)
deriving DecidableEq, Repr

def fSign (f : Fmt) (x : Nat) : Bool := x / f.signBit % 2 == 1

def unpack (f : Fmt) (x : Nat) : FVal :=
  let neg := fSign f x
  let ex := (x >>> f.frac) % 2 ^ f.exp
  let fr := x % 2 ^ f.frac
  if ex = f.maxExp then (if fr = 0 then .inf neg else .nan (fr < 2 ^ (f.frac - 1)))
  else if ex = 0 then .fin neg fr (f.emin - f.frac)
  else .fin neg (2 ^ f.frac + fr) (f.emin - f.frac + (ex - 1 : Nat))

def isNaN (f : Fmt) (x : Nat) : Bool := match unpack f x with | .nan _ => true | _ => false
def isSNaN (f : Fmt) (x : Nat) : Bool := match unpack f x with | .nan s => s | _ => false
/-- Quieting keeps every other bit (R155). -/
def quiet (f : Fmt) (x : Nat) : Nat := (x % 2 ^ f.width) ||| 2 ^ (f.frac - 1)

def withSign (f : Fmt) (neg : Bool) (mag : Nat) : Nat := if neg then mag + f.signBit else mag

/-- `num / den × 2^e` as a multiple of `2^u`, rounded by mode (R149); the second component says the rounding was inexact. -/
def roundAt (mode : Nat) (neg : Bool) (num den : Nat) (e u : Int) : Nat × Bool :=
  let sh := e - u
  let n := if 0 ≤ sh then num <<< sh.toNat else num
  let d := if 0 ≤ sh then den else den <<< (-sh).toNat
  let q := n / d
  let r := n % d
  let up := match mode with
    | 0 => decide (d < 2 * r) || (decide (2 * r = d) && decide (q % 2 = 1))
    | 1 => false
    | 2 => decide (0 < r) && !neg
    | _ => decide (0 < r) && neg
  (if up then q + 1 else q, decide (0 < r))

/-- Exponent of the leading bit of `num / den × 2^e`. -/
def leadExp (num den : Nat) (e : Int) : Int :=
  let l : Int := (num.log2 : Int) - (den.log2 : Int)
  let below := if 0 ≤ l then decide (num < den <<< l.toNat) else decide (num <<< (-l).toNat < den)
  e + (if below then l - 1 else l)

/-- The exact value `num / den × 2^e`, not zero, rounded once to the format with its flags (R149 to R152). -/
def roundValue (f : Fmt) (mode : Nat) (neg : Bool) (num den : Nat) (e : Int) : FRes :=
  let lead := leadExp num den e
  let u := if lead < f.emin then f.emin - f.frac else lead - f.frac
  let d := roundAt mode neg num den e u
  let bits := ((u - (f.emin - f.frac)).toNat <<< f.frac) + d.1
  if f.infBits ≤ bits then
    let toInf := match mode with | 0 => true | 1 => false | 2 => !neg | _ => neg
    ⟨withSign f neg (if toInf then f.infBits else f.infBits - 1), { of := true, nx := true }⟩
  else
    let ub := roundAt mode neg num den e (lead - f.frac)
    let tiny := decide ((if ub.1 = 2 ^ (f.frac + 1) then lead + 1 else lead) < f.emin)
    ⟨withSign f neg bits, { uf := tiny && d.2, nx := d.2 }⟩

/-- A signed integer multiple of `2^e` rounded; `zeroNeg` is the sign of an exact zero. -/
def roundInt (f : Fmt) (mode : Nat) (zeroNeg : Bool) (v e : Int) : FRes :=
  if v = 0 then ⟨withSign f zeroNeg 0, {}⟩ else roundValue f mode (decide (v < 0)) v.natAbs 1 e

def signedMag (neg : Bool) (m : Nat) : Int := if neg then -(m : Int) else (m : Int)

/-- The exact sum of two finite values as a multiple of the smaller power of two. -/
def exactSum (n₁ : Bool) (m₁ : Nat) (e₁ : Int) (n₂ : Bool) (m₂ : Nat) (e₂ : Int) : Int × Int :=
  let e := min e₁ e₂
  (signedMag n₁ (m₁ <<< (e₁ - e).toNat) + signedMag n₂ (m₂ <<< (e₂ - e).toNat), e)

/-- Sign of an exact zero sum (R153). -/
def zeroSumSign (mode : Nat) (n₁ n₂ : Bool) : Bool := if n₁ == n₂ then n₁ else mode == 3

/-- The first NaN of the operands, quieted (R155); `bad` says the operation is invalid besides. -/
def nanResult (f : Fmt) (ops : List Nat) (bad : Bool) : FRes :=
  let nv := bad || ops.any (isSNaN f)
  match ops.find? (isNaN f) with
  | some x => ⟨quiet f x, { nv := nv }⟩
  | none => ⟨f.defaultNaN, { nv := true }⟩

def fAdd (f : Fmt) (mode a b : Nat) (sub : Bool) : FRes :=
  match unpack f a, unpack f b with
  | .nan _, _ => nanResult f [a, b] false
  | _, .nan _ => nanResult f [a, b] false
  | .inf n₁, .inf n₂ =>
    if n₁ == (n₂ ^^ sub) then ⟨withSign f n₁ f.infBits, {}⟩ else nanResult f [] true
  | .inf n₁, .fin .. => ⟨withSign f n₁ f.infBits, {}⟩
  | .fin .., .inf n₂ => ⟨withSign f (n₂ ^^ sub) f.infBits, {}⟩
  | .fin n₁ m₁ e₁, .fin n₂ m₂ e₂ =>
    let s := exactSum n₁ m₁ e₁ (n₂ ^^ sub) m₂ e₂
    roundInt f mode (zeroSumSign mode n₁ (n₂ ^^ sub)) s.1 s.2

def fMul (f : Fmt) (mode a b : Nat) : FRes :=
  match unpack f a, unpack f b with
  | .nan _, _ => nanResult f [a, b] false
  | _, .nan _ => nanResult f [a, b] false
  | .inf n₁, .inf n₂ => ⟨withSign f (n₁ ^^ n₂) f.infBits, {}⟩
  | .inf n₁, .fin n₂ m₂ _ => if m₂ = 0 then nanResult f [] true else ⟨withSign f (n₁ ^^ n₂) f.infBits, {}⟩
  | .fin n₁ m₁ _, .inf n₂ => if m₁ = 0 then nanResult f [] true else ⟨withSign f (n₁ ^^ n₂) f.infBits, {}⟩
  | .fin n₁ m₁ e₁, .fin n₂ m₂ e₂ =>
    if m₁ * m₂ = 0 then ⟨withSign f (n₁ ^^ n₂) 0, {}⟩ else roundValue f mode (n₁ ^^ n₂) (m₁ * m₂) 1 (e₁ + e₂)

def fDiv (f : Fmt) (mode a b : Nat) : FRes :=
  match unpack f a, unpack f b with
  | .nan _, _ => nanResult f [a, b] false
  | _, .nan _ => nanResult f [a, b] false
  | .inf _, .inf _ => nanResult f [] true
  | .inf n₁, .fin n₂ _ _ => ⟨withSign f (n₁ ^^ n₂) f.infBits, {}⟩
  | .fin n₁ _ _, .inf n₂ => ⟨withSign f (n₁ ^^ n₂) 0, {}⟩
  | .fin n₁ m₁ e₁, .fin n₂ m₂ e₂ =>
    if m₂ = 0 then
      if m₁ = 0 then nanResult f [] true else ⟨withSign f (n₁ ^^ n₂) f.infBits, { dz := true }⟩
    else if m₁ = 0 then ⟨withSign f (n₁ ^^ n₂) 0, {}⟩
    else roundValue f mode (n₁ ^^ n₂) m₁ m₂ (e₁ - e₂)

/-- `a × b + c` with one rounding (R157). -/
def fFma (f : Fmt) (mode a b c : Nat) : FRes :=
  let zeroInf := match unpack f a, unpack f b with
    | .inf _, .fin _ m _ => decide (m = 0)
    | .fin _ m _, .inf _ => decide (m = 0)
    | _, _ => false
  if isNaN f a || isNaN f b || isNaN f c then nanResult f [a, b, c] zeroInf
  else if zeroInf then nanResult f [] true
  else match unpack f a, unpack f b, unpack f c with
  | .fin n₁ m₁ e₁, .fin n₂ m₂ e₂, .fin n₃ m₃ e₃ =>
    let s := exactSum (n₁ ^^ n₂) (m₁ * m₂) (e₁ + e₂) n₃ m₃ e₃
    roundInt f mode (zeroSumSign mode (n₁ ^^ n₂) n₃) s.1 s.2
  | .fin .., .fin .., .inf n₃ => ⟨withSign f n₃ f.infBits, {}⟩
  | _, _, .inf n₃ =>
    if (fSign f a ^^ fSign f b) == n₃ then ⟨withSign f n₃ f.infBits, {}⟩ else nanResult f [] true
  | _, _, _ => ⟨withSign f (fSign f a ^^ fSign f b) f.infBits, {}⟩

/-- The order of encodings that are not NaNs, with −0 and +0 equal (R158). -/
def fKey (f : Fmt) (x : Nat) : Int :=
  let mag : Int := ((x % f.signBit : Nat) : Int)
  if fSign f x then -mag else mag

/-- A relation of Table 5-4 and its INVALID flag. -/
def fCmp (f : Fmt) (rel a b : Nat) : Bool × FFlags :=
  if isNaN f a || isNaN f b then
    let ordered := decide (2 ≤ rel ∧ rel ≤ 5)
    (decide (rel = 1 ∨ rel = 6), { nv := ordered || isSNaN f a || isSNaN f b })
  else (relHolds rel (fKey f a) (fKey f b), {})

/-- Integer to floating point (Table 5-5). -/
def fromInt (f : Fmt) (mode : Nat) (v : Int) : FRes := roundInt f mode false v 0

/-- Floating point to a `w`-bit integer (Table 5-5). -/
def toInt (f : Fmt) (mode w : Nat) (signed : Bool) (x : Nat) : FRes :=
  let lo : Int := if signed then -((2 ^ (w - 1) : Nat) : Int) else 0
  let hi : Int := if signed then ((2 ^ (w - 1) : Nat) : Int) - 1 else ((2 ^ w : Nat) : Int) - 1
  match unpack f x with
  | .nan _ => ⟨0, { nv := true }⟩
  | .inf neg => ⟨narrow w (if neg then lo else hi), { nv := true }⟩
  | .fin neg m e =>
    let r := roundAt mode neg m 1 e 0
    let v := signedMag neg r.1
    if v < lo then ⟨narrow w lo, { nv := true }⟩
    else if hi < v then ⟨narrow w hi, { nv := true }⟩
    else ⟨narrow w v, { nx := r.2 }⟩

/-- binary32 to binary64, exact (Table 5-5). -/
def widen (x : Nat) : FRes :=
  match unpack fmt32 x with
  | .nan s => ⟨withSign fmt64 (fSign fmt32 x) (fmt64.infBits + ((quiet fmt32 x % 2 ^ 23) <<< 29)), { nv := s }⟩
  | .inf n => ⟨withSign fmt64 n fmt64.infBits, {}⟩
  | .fin n m e => if m = 0 then ⟨withSign fmt64 n 0, {}⟩ else roundValue fmt64 0 n m 1 e

/-- binary64 to binary32, rounded (Table 5-5). -/
def narrow64 (mode x : Nat) : FRes :=
  match unpack fmt64 x with
  | .nan s => ⟨withSign fmt32 (fSign fmt64 x) (fmt32.infBits + ((quiet fmt64 x % 2 ^ 52) >>> 29)), { nv := s }⟩
  | .inf n => ⟨withSign fmt32 n fmt32.infBits, {}⟩
  | .fin n m e => if m = 0 then ⟨withSign fmt32 n 0, {}⟩ else roundValue fmt32 mode n m 1 e

end Sys2Proof.Machine
end

