-- ==== Sys2Proof/Machine/RegTable.lean ====
section
/-!
DEFINITION. The register tables of the block pages: which slots each page type has, their reset values and the access
code of each bit (R14, R46, R51, and the register tables of the chapters).
A slot whose fields are all RO and reset to zero has no entry.
-/
namespace Sys2Proof.Machine

/-- Bit `i` of a word. -/
def bitAt (w : Word) (i : Nat) : Bool := w.getLsbD i
/-- Bits `lo + n - 1` down to `lo` of a word, as a number (R4). -/
def fieldOf (w : Word) (lo n : Nat) : Nat := (w.toNat >>> lo) % 2 ^ n
/-- The word with bits `lo + n - 1` down to `lo` replaced by `v`. -/
def withField (w : Word) (lo n v : Nat) : Word :=
  let mask : Word := BitVec.ofNat 36 ((2 ^ n - 1) <<< lo)
  (w &&& ~~~ mask) ||| (BitVec.ofNat 36 ((v % 2 ^ n) <<< lo))

/-- One slot or a run of equal slots: `first`, `first + stride`, …, `count` of them. The masks say which bits have access
RW, W1C, W1S and WO (or RP); every other bit is RO or reserved. -/
structure SlotSpec where
  first : Nat
  count : Nat
  stride : Nat
  reset : Word
  rw : Word
  w1c : Word
  w1s : Word
  wo : Word
deriving DecidableEq, Repr

/-- The spec's slot `s`, if the entry covers it. -/
def SlotSpec.covers (e : SlotSpec) (s : Nat) : Bool :=
  decide (e.first ≤ s) && decide ((s - e.first) % e.stride = 0) && decide ((s - e.first) / e.stride < e.count)

/-- Slots 2 to 9 of a page (Table 2-1): CTRL, STAT.ERR, EV_EN, EV_PEND, EV_SET, PERTURB, LOCKS. -/
def header (ctrlReset ctrlRw ctrlWo events locks : Word) : List SlotSpec :=
  [ ⟨2, 1, 1, ctrlReset, ctrlRw, 0, 0, ctrlWo⟩
  , ⟨3, 1, 1, 0, 0, 0x800000000, 0, 0⟩
  , ⟨5, 1, 1, 0, events, 0, 0, 0⟩
  , ⟨6, 1, 1, 0, 0, events, 0, 0⟩
  , ⟨7, 1, 1, 0, 0, 0, 0, events⟩
  , ⟨8, 1, 1, 0, 0x9ffffffff, 0, 0, 0⟩
  , ⟨9, 1, 1, 0, 0, 0, locks, 0⟩ ]

/-- Slots of the HUB page. -/
def hubSlots : List SlotSpec :=
  header 0x0 0x0 0x0 0x1f 0x1f ++
  [ ⟨17, 1, 1, 0x0, 0xfffffffff, 0x0, 0x0, 0x0⟩ /- BADACC -/
  , ⟨18, 1, 1, 0x88, 0x0, 0x0, 0x0, 0x7⟩ /- MODE -/
  , ⟨19, 1, 1, 0x1, 0x1, 0x0, 0x0, 0x0⟩ /- QMODE -/
  , ⟨20, 1, 1, 0x80000000, 0x0, 0x0, 0x0, 0x0⟩ /- BOOTSTAT -/
  , ⟨21, 1, 1, 0x0, 0x0, 0x0, 0x0, 0x800000000⟩ /- RMAP -/
  , ⟨23, 1, 1, 0x0, 0x0, 0x0, 0x0, 0x1⟩ /- DEVRST -/
  , ⟨24, 1, 1, 0x0, 0xffff, 0x0, 0x0, 0x0⟩ /- PDOM -/ ]

/-- Slots of the FLOCK page. -/
def flockSlots : List SlotSpec :=
  header 0x0 0x0 0x0 0x7 0x1f ++
  [ ⟨17, 4, 1, 0x0, 0x0, 0x800000000, 0x0, 0x0⟩ /- MCLOGk -/
  , ⟨21, 4, 1, 0x0, 0x0, 0x0, 0x0, 0x3⟩ /- MCCMDk -/
  , ⟨25, 1, 1, 0x0, 0x0, 0x0, 0x0, 0x1⟩ /- FTEST -/
  , ⟨26, 1, 1, 0x0, 0xfffffffff, 0x0, 0x0, 0x0⟩ /- MCCNT -/ ]

/-- Slots of the VOTE page. -/
def voteSlots : List SlotSpec :=
  header 0x0 0x0 0x0 0x7 0x1f ++
  [ ⟨16, 1, 1, 0x10000, 0xffffff, 0x0, 0x0, 0x0⟩ /- WINDOW -/
  , ⟨17, 1, 1, 0x0, 0x0, 0x800000000, 0x0, 0x0⟩ /- LOG -/
  , ⟨18, 1, 1, 0x0, 0xfffffffff, 0x0, 0x0, 0x0⟩ /- RESYNCNT -/ ]

/-- Slots of the EVH page. -/
def evhSlots : List SlotSpec :=
  header 0x0 0x1 0x0 0x3 0x1f ++
  [ ⟨16, 1, 1, 0x0, 0x7ff, 0x0, 0x0, 0x0⟩ /- RTADDR -/
  , ⟨17, 1, 1, 0x0, 0xfffffffff, 0x0, 0x0, 0x0⟩ /- RTDATA -/
  , ⟨64, 1, 1, 0x0, 0x0, 0xffffffff, 0x0, 0x0⟩ /- SWEV -/
  , ⟨65, 1, 1, 0x0, 0x0, 0x0, 0xffffffff, 0x0⟩ /- SWEVSET -/
  , ⟨66, 4, 1, 0x0, 0xfffffffff, 0x0, 0x0, 0x0⟩ /- TMR0 to TMR3 -/
  , ⟨70, 1, 1, 0x0, 0x0, 0x0, 0x0, 0xff⟩ /- VACK -/ ]

/-- Slots of the AON page. -/
def aonSlots : List SlotSpec :=
  header 0x0 0x0 0x0 0x1f 0x1f ++
  [ ⟨16, 1, 1, 0x80000000, 0x0, 0x0, 0x0, 0x0⟩ /- RCAUSE -/
  , ⟨17, 1, 1, 0x0, 0x0, 0x1fe, 0x0, 0x0⟩ /- RSEEN -/
  , ⟨18, 1, 1, 0x0, 0xfffffffff, 0x0, 0x0, 0x0⟩ /- RCOUNT -/
  , ⟨20, 1, 1, 0x5294a, 0xfffff, 0x0, 0x0, 0x0⟩ /- VSET -/
  , ⟨21, 1, 1, 0x5f0000000, 0xff0000000, 0x0, 0x0, 0x0⟩ /- THERM -/
  , ⟨22, 1, 1, 0x0, 0x7ff, 0x0, 0x0, 0x0⟩ /- MTADDR -/
  , ⟨25, 1, 1, 0xd, 0x1ff, 0x0, 0x0, 0x0⟩ /- GUARD -/
  , ⟨32, 14, 2, 0x0, 0xfffffffff, 0x0, 0x0, 0x0⟩ /- LOGA -/
  , ⟨33, 14, 2, 0x0, 0xfffffffff, 0x0, 0x0, 0x0⟩ /- LOGB -/ ]

/-- Slots of the BW page. -/
def bwSlots : List SlotSpec :=
  header 0x0 0x1 0x0 0x3 0x1f ++
  [ ⟨16, 1, 1, 0x0, 0x3ffffc, 0x0, 0x0, 0x0⟩ /- RESETPC -/
  , ⟨17, 1, 1, 0x0, 0xf, 0x0, 0x0, 0x0⟩ /- CPBIND -/ ]

/-- Slots of the WDG page. -/
def wdgSlots : List SlotSpec :=
  header 0x0 0x7 0x0 0x7 0x1f ++
  [ ⟨16, 1, 1, 0x0, 0xffffff, 0x0, 0x0, 0x0⟩ /- PERIOD -/
  , ⟨18, 1, 1, 0x0, 0x0, 0x0, 0x0, 0x1⟩ /- KICK -/ ]

/-- Slots of the MSEQ page. -/
def mseqSlots : List SlotSpec :=
  header 0x0 0x7 0x0 0x7 0x3f ++
  [ ⟨16, 1, 1, 0x0, 0xfffffffff, 0x0, 0x0, 0x0⟩ /- CTXW -/
  , ⟨17, 4, 1, 0x0, 0x3ffffff, 0x0, 0x0, 0x0⟩ /- CTXA0 to CTXA3 -/
  , ⟨21, 1, 1, 0x0, 0xffffff, 0x0, 0x0, 0x0⟩ /- CTXC -/
  , ⟨22, 2, 1, 0x0, 0xfffffffff, 0x0, 0x0, 0x0⟩ /- HELDH, HELDT -/
  , ⟨24, 2, 1, 0x0, 0xfffffffff, 0x0, 0x0, 0x0⟩ /- HELDS0, HELDS1 -/
  , ⟨26, 1, 1, 0x0, 0x1fff, 0x0, 0x0, 0x0⟩ /- SVCBASE -/
  , ⟨27, 1, 1, 0x0, 0xfffffffff, 0x0, 0x0, 0x0⟩ /- REDIR0 -/
  , ⟨28, 1, 1, 0x0, 0xfffffff, 0x0, 0x0, 0x0⟩ /- REDIR1 -/
  , ⟨29, 1, 1, 0x1000, 0x1fff, 0x0, 0x0, 0x0⟩ /- CSADDR -/
  , ⟨30, 4, 1, 0x0, 0x0, 0x0, 0x0, 0xfffffffff⟩ /- CSDATA0 to CSDATA3 -/
  , ⟨37, 1, 1, 0x0, 0x0, 0x800000000, 0x0, 0x0⟩ /- PERRLOG -/ ]

/-- Slots of the DROVE page. -/
def droveSlots : List SlotSpec :=
  header 0x0 0x1 0x0 0x3 0x1f ++
  [ ⟨16, 128, 1, 0x0, 0xff8000000, 0x0, 0x0, 0x0⟩ /- GNTTAB -/
  , ⟨144, 1, 1, 0x100000, 0xffffff, 0x0, 0x0, 0x0⟩ /- TOUT -/
  , ⟨160, 32, 2, 0x0, 0xfffffffff, 0x0, 0x0, 0x0⟩ /- REQB -/
  , ⟨161, 32, 2, 0x0, 0xfffffffff, 0x0, 0x0, 0x0⟩ /- RSPB -/
  , ⟨224, 256, 1, 0x0, 0xfffffffff, 0x0, 0x0, 0x0⟩ /- HIST -/ ]

/-- Slots of the TILE page. -/
def tileSlots : List SlotSpec :=
  header 0x0 0x0 0x3 0x7f 0x1f ++
  [ ⟨16, 1, 1, 0x0, 0xfffffffff, 0x0, 0x0, 0x0⟩ /- CFGBASE -/
  , ⟨17, 1, 1, 0x0, 0x0, 0x0, 0x0, 0xff⟩ /- GO -/
  , ⟨18, 1, 1, 0x0, 0xfffffffff, 0x0, 0x0, 0x0⟩ /- SODEST -/
  , ⟨19, 1, 1, 0x0, 0xfffffffff, 0x0, 0x0, 0x0⟩ /- CLK -/
  , ⟨20, 2, 1, 0x0, 0xfffffffff, 0x0, 0x0, 0x0⟩ /- PPSEL0, PPSEL1 -/
  , ⟨22, 1, 1, 0x0, 0x7ff, 0x0, 0x0, 0x0⟩ /- CELLSEL -/
  , ⟨24, 1, 1, 0x0, 0xfffffffff, 0x0, 0x0, 0x0⟩ /- CONTCNT -/
  , ⟨25, 1, 1, 0x0, 0xfffffffff, 0x0, 0x0, 0x0⟩ /- DROPCNT -/
  , ⟨128, 64, 1, 0x0, 0x0, 0x0, 0x0, 0xfffffffff⟩ /- SIN window -/ ]

/-- Slots of the COLLIE page. -/
def collieSlots : List SlotSpec :=
  header 0x0 0x0 0x0 0xfffffffff 0x1f ++
  [ ⟨16, 1, 1, 0x0, 0xfffffffff, 0x0, 0x0, 0x0⟩ /- CTBASE -/
  , ⟨17, 1, 1, 0x0, 0x0, 0x0, 0x0, 0xffff⟩ /- CHSTART -/
  , ⟨18, 1, 1, 0x0, 0x0, 0x0, 0x0, 0xffff⟩ /- CHSTOP -/
  , ⟨19, 1, 1, 0x0, 0x0, 0x0, 0x0, 0xffff⟩ /- SWAP -/
  , ⟨20, 1, 1, 0x0, 0xfff, 0x0, 0x0, 0x0⟩ /- PSADDR -/
  , ⟨21, 1, 1, 0x0, 0xfffffffff, 0x0, 0x0, 0x0⟩ /- PSDATA -/
  , ⟨22, 1, 1, 0x0, 0x0, 0xffff, 0x0, 0x0⟩ /- FLAGS -/
  , ⟨23, 1, 1, 0x0, 0x0, 0x0, 0xffff, 0x0⟩ /- FLAGSET -/
  , ⟨24, 1, 1, 0x0, 0x0, 0x0, 0x0, 0xfff⟩ /- DBELL -/
  , ⟨25, 1, 1, 0x0, 0xfffffffff, 0x0, 0x0, 0x0⟩ /- TSTART -/
  , ⟨26, 1, 1, 0x0, 0xffffffff, 0x0, 0x0, 0x0⟩ /- ARM -/
  , ⟨27, 1, 1, 0x0, 0x0, 0x0, 0x0, 0x1⟩ /- SYNC -/
  , ⟨28, 4, 1, 0x0, 0xfffffffff, 0x0, 0x0, 0x0⟩ /- TCMP0 to TCMP3 -/
  , ⟨32, 9, 1, 0x1f0, 0x1fc, 0x0, 0x0, 0x0⟩ /- PINCFGi -/
  , ⟨41, 1, 1, 0x0, 0xfffffffff, 0x0, 0x0, 0x0⟩ /- DROPCNT -/
  , ⟨42, 1, 1, 0x0, 0x0, 0x800000000, 0x0, 0x0⟩ /- PSLOG -/
  , ⟨43, 1, 1, 0x0, 0x0, 0x0, 0x0, 0xfffff⟩ /- CHCMD -/
  , ⟨48, 16, 1, 0x0, 0x0, 0xf000, 0x0, 0x0⟩ /- CHSTATc -/
  , ⟨64, 16, 1, 0x0, 0xfffffffff, 0x0, 0x0, 0x0⟩ /- STALLCNT -/
  , ⟨128, 128, 1, 0x0, 0x0, 0x0, 0x0, 0xfffffffff⟩ /- window -/ ]

/-- Slots of the PCIE page. -/
def pcieSlots : List SlotSpec :=
  header 0x6 0x7 0x8 0xff1f 0x1f ++
  [ ⟨16, 4, 8, 0x0, 0xfffffffff, 0x0, 0x0, 0x0⟩ /- DQBASE -/
  , ⟨17, 4, 8, 0x0, 0xe00000fff, 0x0, 0x0, 0x0⟩ /- DQCFG -/
  , ⟨18, 4, 8, 0x0, 0xfff, 0x0, 0x0, 0x0⟩ /- DQTAIL -/
  , ⟨21, 4, 8, 0x0, 0xfffffffff, 0x0, 0x0, 0x0⟩ /- OCTCNT -/ ]

/-- Slots of the PF page. -/
def pfSlots : List SlotSpec :=
  header 0x0 0x0 0x0 0x7 0x1f ++
  [ ⟨16, 1, 1, 0x0, 0xff, 0x0, 0x0, 0x0⟩ /- HBMWIN -/ ]

/-- Slots of the BANK page. -/
def bankSlots : List SlotSpec :=
  header 0x0 0x1 0x0 0x1f 0x1f ++
  [ ⟨16, 1, 1, 0x27, 0x800ffffff, 0x0, 0x0, 0x0⟩ /- BTEST -/
  , ⟨17, 1, 1, 0x0, 0x3fff, 0x0, 0x0, 0x0⟩ /- BTPOS -/
  , ⟨18, 1, 1, 0x0, 0x0, 0x800000000, 0x0, 0x0⟩ /- BTLOG -/
  , ⟨19, 1, 1, 0x0, 0x0, 0x800000000, 0x0, 0x0⟩ /- PLOG -/
  , ⟨20, 1, 1, 0x0, 0xfffffffff, 0x0, 0x0, 0x0⟩ /- PARCNT -/
  , ⟨21, 1, 1, 0x0, 0xfffffffff, 0x0, 0x0, 0x0⟩ /- DROPCNT -/ ]

/-- Slots of the BOARD page. -/
def boardSlots : List SlotSpec :=
  header 0x1 0x1 0x0 0x1 0x1f ++
  [ ⟨16, 1, 1, 0x0, 0xfffffffff, 0x0, 0x0, 0x0⟩ /- MGMTCNT -/ ]

/-- Slots of the THONOS page. The spec gives its events no bit numbers: REJECT 0, SLOTDIFF 1, CMDDONE 2, DBGUNLOCK 3, LOCKOUT 4,
TAMPER 5 are this model's (DESIGN CHOICE, log entry 13). -/
def thonosSlots : List SlotSpec :=
  header 0x0 0xfc00fffff 0x0 0x3f 0x1f ++
  []

/-- Slots of the GANDER page. -/
def ganderSlots : List SlotSpec :=
  header 0x0 0x1fff 0x0 0x1f 0x1f ++
  [ ⟨16, 1, 1, 0xffeff, 0xfffff, 0x0, 0x0, 0x0⟩ /- TMBOX -/
  , ⟨32, 64, 1, 0x0, 0xfffffffff, 0x0, 0x0, 0x0⟩ /- CMPCTL, CMPADDR -/ ]

/-- Slots of the STOP page. -/
def stopSlots : List SlotSpec :=
  header 0x0 0x1 0x0 0xf 0x1f ++
  [ ⟨17, 1, 1, 0x40, 0xff, 0x0, 0x0, 0x0⟩ /- CFG -/
  , ⟨18, 1, 1, 0x0, 0xfffffffff, 0x0, 0x0, 0x0⟩ /- DROPCNT -/
  , ⟨19, 1, 1, 0x0, 0xfffffffff, 0x0, 0x0, 0x0⟩ /- LOSTCNT -/
  , ⟨20, 1, 1, 0x0, 0xfffffffff, 0x0, 0x0, 0x0⟩ /- HCNT -/ ]

/-- Slots of the FOLD page. -/
def foldSlots : List SlotSpec :=
  header 0x0 0x1 0x0 0x707 0x1f ++
  [ ⟨16, 1, 1, 0x780000, 0x0, 0x0, 0x0, 0x0⟩ /- POS -/
  , ⟨17, 1, 1, 0x0, 0x0, 0x800000000, 0x0, 0x0⟩ /- PERRLOG -/
  , ⟨18, 1, 1, 0x0, 0xfffffffff, 0x0, 0x0, 0x0⟩ /- PERRCNT -/
  , ⟨32, 1, 1, 0x600000, 0x7c0000, 0x0, 0x0, 0x0⟩ /- CLK -/
  , ⟨34, 1, 1, 0x0, 0xff00, 0x0, 0x0, 0x0⟩ /- TEMP -/ ]

/-- Slots of the CTU page. -/
def ctuSlots : List SlotSpec :=
  header 0x0 0x0 0x0 0x3ffffffff 0x1f ++
  [ ⟨16, 1, 1, 0x0, 0xfffffffff, 0x0, 0x0, 0x0⟩ /- DTBASE -/
  , ⟨17, 1, 1, 0x0, 0x0, 0x0, 0x0, 0xffff⟩ /- CHSTART -/
  , ⟨18, 1, 1, 0x0, 0x0, 0x0, 0x0, 0xffff⟩ /- CHABORT -/
  , ⟨19, 1, 1, 0x0, 0x0, 0x800000000, 0x0, 0x0⟩ /- PLOG -/
  , ⟨20, 1, 1, 0x0, 0xfffffffff, 0x0, 0x0, 0x0⟩ /- STALLCNT -/ ]

/-- Slots of the XBAR page. -/
def xbarSlots : List SlotSpec :=
  header 0x0 0x0 0x0 0x0 0x1f ++
  []

/-- Slots of the HBMC page. -/
def hbmcSlots : List SlotSpec :=
  header 0x0 0x0 0x0 0xf 0x1f ++
  [ ⟨16, 1, 1, 0x0, 0x0, 0x800000000, 0x0, 0x0⟩ /- PLOG -/
  , ⟨18, 1, 1, 0x0, 0xfffffffff, 0x0, 0x0, 0x0⟩ /- PARCNT -/
  , ⟨19, 1, 1, 0x0, 0xfffffffff, 0x0, 0x0, 0x0⟩ /- SEVCNT -/
  , ⟨20, 1, 1, 0x0, 0xfffffffff, 0x0, 0x0, 0x0⟩ /- DROPCNT -/ ]

/-- Slots of the DIE page. -/
def dieSlots : List SlotSpec :=
  header 0x0 0x0 0x0 0x0 0x1f ++
  [ ⟨16, 1, 1, 0xfffffffff, 0x0, 0x0, 0x0, 0x0⟩ /- COLMAP -/ ]

/-- The block types of Table 2-4. -/
inductive PType where
  | hub | flock | vote | evh | aon | bw | wdg | mseq | drove | tile | collie | pcie | pf | bank | board | thonos
  | gander | stop | fold | ctu | xbar | hbmc | die | unlisted
deriving DecidableEq, Repr

/-- The TYPE codes of Table 2-4. -/
def PType.code : PType → Nat
  | .hub => 0o001 | .flock => 0o002 | .vote => 0o003 | .evh => 0o004 | .aon => 0o005
  | .bw => 0o010 | .wdg => 0o011 | .mseq => 0o012 | .drove => 0o020 | .tile => 0o030
  | .collie => 0o031 | .pcie => 0o032 | .pf => 0o033 | .bank => 0o034 | .board => 0o035
  | .thonos => 0o036 | .gander => 0o037 | .stop => 0o021 | .fold => 0o040 | .ctu => 0o041
  | .xbar => 0o042 | .hbmc => 0o043 | .die => 0o044 | .unlisted => 0

/-- The slots of each page type. -/
def PType.slots : PType → List SlotSpec
  | .hub => hubSlots | .flock => flockSlots | .vote => voteSlots | .evh => evhSlots | .aon => aonSlots
  | .bw => bwSlots | .wdg => wdgSlots | .mseq => mseqSlots | .drove => droveSlots | .tile => tileSlots
  | .collie => collieSlots | .pcie => pcieSlots | .pf => pfSlots | .bank => bankSlots | .board => boardSlots
  | .thonos => thonosSlots | .gander => ganderSlots | .stop => stopSlots | .fold => foldSlots | .ctu => ctuSlots
  | .xbar => xbarSlots | .hbmc => hbmcSlots | .die => dieSlots | .unlisted => []

/-- Table 2-4: the block type of a page and its instance number within the type. -/
def pageBlock (p : Nat) : PType × Nat :=
  if p = 0 then (.hub, 0) else if p = 1 then (.flock, 0) else if p = 2 then (.vote, 0)
  else if p = 3 then (.evh, 0) else if p = 4 then (.aon, 0) else if p < 8 then (.unlisted, 0)
  else if p < 12 then (.bw, p - 8) else if p < 16 then (.wdg, p - 12) else if p < 20 then (.mseq, p - 16)
  else if p < 23 then (.drove, p - 20) else if p < 24 then (.unlisted, 0)
  else if p < 32 then (.tile, p - 24) else if p < 40 then (.collie, p - 32) else if p < 42 then (.pcie, p - 40)
  else if p < 46 then (.pf, p - 42) else if p < 48 then (.unlisted, 0) else if p < 57 then (.bank, p - 48)
  else if p = 57 then (.board, 0) else if p = 58 then (.thonos, 0) else if p = 59 then (.gander, 0)
  else if p < 64 then (.unlisted, 0) else if p < 112 then (.stop, p - 64)
  else if p < 1024 then (.unlisted, 0)
  else if p < 1024 + 512 * 4 then
    let k := (p - 1024) / 512
    let o := (p - 1024) % 512
    if o < 240 then (.fold, k * 240 + o) else if o < 249 then (.ctu, k * 9 + (o - 240))
    else if o = 249 then (.xbar, k) else if o < 252 then (.hbmc, k * 2 + (o - 250))
    else if o = 252 then (.die, k) else (.unlisted, 0)
  else (.unlisted, 0)

/-- The instance number that ID.INST holds: within the die for the blocks of a fold die, whose die ID.LOC names. -/
def pageInst (p : Nat) : Nat :=
  match pageBlock p with
  | (.fold, i) => i % 240
  | (.ctu, i) => i % 9
  | (.hbmc, i) => i % 2
  | (.xbar, _) => 0
  | (.die, _) => 0
  | (_, i) => i

/-- ID.LOC: 0 to 3 for FD0 to FD3, 4 for HX. -/
def pageLoc (p : Nat) : Nat := if 1024 ≤ p ∧ p < 3072 then (p - 1024) / 512 else 4

def findSlot : List SlotSpec → Nat → Option SlotSpec
  | [], _ => none
  | e :: l, s => if e.covers s then some e else findSlot l s

/-- The table's entry for slot `s` of page `p`. -/
def slotSpec (p s : Nat) : Option SlotSpec := findSlot (pageBlock p).1.slots s

/-- The stops of the Gander and Thonos blocks, whose CFG.PRIO resets to 1 (Table 10-7). -/
def prioStop (p : Nat) : Bool := p == 75 || p == 78 || p == 105

/-- The reset value of slot `s` of page `p`. -/
def slotReset (p s : Nat) : Word :=
  match slotSpec p s with
  | some e => if s = 17 ∧ prioStop p = true then e.reset ||| 0x80 else e.reset
  | none => 0

/-- The key of a register in the register file, and the reset value at a key. -/
def regKey (p s : Nat) : Nat := p * 512 + s
def regDefault (key : Nat) : Word := slotReset (key / 512) (key % 512)

end Sys2Proof.Machine
end

