-- ==== Sys2Proof/Config.lean ====
section
/-!
DEFINITION. What the spec leaves open or leaves to the implementation. Every constant here is opaque: no proof can see
a value, so a claim holds whatever the value is. Each is named in a row of notes/assumptions.
-/
namespace Sys2Proof.Config

/-- A free value: what the spec calls undefined, or does not state, drawn at the state's counter (log entry 4). -/
opaque freeWord : Nat → Word
/-- A working plane at an instruction boundary (R224): undefined, drawn at the epoch and the row key (log entry 4). -/
opaque workSlice : Nat → Nat → Word
/-- The vendor microwords of ROM addresses 0 to 4,095; not published but for the words of R231's worked example (R209, R223; log entry 8). -/
opaque romWord : Nat → BitVec 144
/-- The beat words of the ROM routines, by draw; not published (R223; log entry 8). -/
opaque romBeat : Nat → BitVec 121
/-- Which read, RDA (false) or RDB (true), a ROM routine uses for its operand `i` of opcode `op`; not specified (R92; log entry 8). -/
opaque romReadIsB : Nat → Nat → Bool
/-- The beat-word signature that a ROM routine leaves; not specified (R223; log entry 8). -/
opaque romBeatSig : Nat → BitVec 32
/-- What Ezpor blows at its test, by item and index (Table 17-1): 0 DEVID, 1 ROMDIG, 2 to 7 key hashes of slots 0 to 5,
8 to 11 debug hashes, 12 PWDHASH, 13 LCS, 14 ARC, 15 stepping, 16 MFLOOR and 17 MFRESH by island, 18 identity public key, 19 Vendor ID, 20 Revision ID
(log entry 5). -/
opaque factory : Nat → Nat → Nat
/-- The check bits of a flit header: an extended Hamming code over its 120 bits, whose places the spec does not give (R298; log entry 8). -/
opaque ringChk : BitVec 120 → BitVec 8
/-- The identity key's signature of a digest, drawn at a counter (log entry 13). -/
opaque idSign : Nat → List Octet → List Octet
/-- Octets of the entropy source, by draw and index (log entry 13). -/
opaque entropy : Nat → Nat → Octet
/-- REV.MAJOR and REV.MINOR of a page, which may differ between steppings (R51; log entry 5). -/
opaque revFuse : Nat → Word

end Sys2Proof.Config

namespace Sys2Proof.Config

/-- Whether the module is CNP7236-E192 (HBM3E) or CNP7236-S128 (HBM3): the fuse HUB.PART.HBMGEN (R1, R60; log entry 5). -/
opaque isE192 : Bool

end Sys2Proof.Config
end

