-- ==== Sys2Proof/Machine/State.lean ====
section
/-!
DEFINITION. The state of the device as plain data, and the state after reset.
`Chip` is everything the spec gives the device; `State` adds the queue of waiting commands.
-/
namespace Sys2Proof.Machine

/-! ### Requests over the drove rings (10) -/

/-- What a target answers to a request: status (Table 10-4), data and the poisoned elements. -/
structure Srv where
  status : Nat
  data : List (BitVec 9)
  mask : List Nat
deriving DecidableEq, Repr

/-- The requests of one transfer of a block, in order: the answers so far, and the stop and tag of the request that is out (R300, R307). -/
structure Xact where
  ans : List Srv
  wait : Option ((Nat × Nat) × BitVec 6)
deriving DecidableEq, Repr

/-- Nothing has been asked. -/
def Xact.none : Xact := ⟨[], Option.none⟩

/-! ### Array and microsequencers (01, 03, 04, 07) -/

/-- The registers C, F, M, X and T of the 36 lambs of one lamb row of a fold; bit j is local column j (R65). -/
structure LambRow where
  c : Word
  f : Word
  m : Word
  x : Word
  t : Word
deriving DecidableEq, Repr

/-- C = F = X = T = 0 and M = 1 (R66). -/
def LambRow.formed : LambRow := ⟨0, 0, BitVec.allOnes 36, 0, 0⟩

/-- One issued array instruction: its words, the captured operand (R97), the rounding mode captured at issue (R121)
and the offset it was fetched from (R104). -/
structure QItem where
  head : Word
  tail : Word
  sop : Double
  rm : BitVec 2
  pc : Word
deriving DecidableEq, Repr

/-- A reduction result on its way to the bellwether (R40): what it updates (RUPD of Table 7-2) and its values. -/
structure Red where
  rupd : BitVec 2
  bell : Bool
  count : Nat
  first : Word
  /-- the sample came from a microroutine, so BELLIN takes the bell too (R220) -/
  micro : Bool
deriving DecidableEq, Repr

/-- What a ROM routine held at a checkpoint has still to give (R226): the slices of the destination planes that are not final yet,
in routine order, the lamb rows at its end, FPSW flags and the divide-by-zero of its last sample. -/
structure RomTodo where
  planes : List (List (Nat × BitVec 40))
  regs : List (Nat × LambRow)
  fl : Nat
  dz : Bool
deriving DecidableEq, Repr

/-- A routine of the ROM under way: the beats it has still to send, and, past its first checkpoint, what it has still to give
(log entry 8). -/
structure RomRun where
  left : Nat
  todo : Option RomTodo
deriving DecidableEq, Repr

/-- The registers of one microsequencer, Table 7-1, and what R215 to R232 add. -/
structure Mseq where
  upc : BitVec 13
  ar : List (BitVec 13)
  cnt0 : BitVec 12
  cnt1 : BitVec 12
  bi : BitVec 12
  item : QItem
  progress : BitVec 13
  bellin : Bool
  mstack : List (BitVec 13)
  since : Nat
  /-- consecutive microwords with BEAT = 0 (R232) -/
  dry : Nat
  /-- microwords executed since the instruction began, to tell apart points of one beat number (R228) -/
  pos : Nat
  /-- an instruction is running or held -/
  active : Bool
  /-- the ROM routine under way, where its microwords are not published -/
  rom : Option RomRun
  /-- the fence beat of an instruction with n = 0 is under way (R100, R216) -/
  fence : Bool
  /-- a preemption request has not taken effect yet (R227) -/
  preempt : Bool
  /-- a voted instruction that waits to start (R39, R216) -/
  voted : Option QItem
  /-- reduction results not delivered yet, oldest first -/
  reds : List Red
  /-- CSDATA0 to CSDATA2 as last written (R210) -/
  csdata : BitVec 108
  /-- folds (die, physical column, row) with a failed plane read in the running instruction (R81) -/
  derr : List (Nat × Nat × Nat)
  /-- mask-stack depth after the last completed instruction (R126, R457) -/
  depth : Nat
  /-- RUPD of the last beat with SAMPLE = 1 that was sent, and the bell of the last one that was executed -/
  rupd : BitVec 2
  lastBell : Bool
  /-- the last microword executed was a checkpoint (R225) -/
  atCkpt : Bool
  /-- the END microword has sent its beat and waits for it -/
  ending : Bool
  /-- resumed from a context that the device did not write (R231) -/
  foreign : Bool
  /-- the contexts that the device has written, as slots 16 to 25 of the page, with the ROM routine each holds -/
  ctxs : List (List Word × Option RomRun)
deriving DecidableEq, Repr

def QItem.none : QItem := ⟨0, 0, 0, 0, 0⟩

/-- The state that a reset of the microsequencer and the formation of a flock give (R215). -/
def Mseq.init : Mseq :=
  { upc := 0, ar := List.replicate 8 0, cnt0 := 0, cnt1 := 0, bi := 0, item := QItem.none, progress := 0, bellin := false,
    mstack := [], since := 0, dry := 0, pos := 0, active := false, rom := none, fence := false, preempt := false, voted := none, reds := [], csdata := 0, derr := [], depth := 0, rupd := 0,
    lastBell := false, atCkpt := false, ending := false, foreign := false, ctxs := [] }

/-- Folds, planes, lambs, microsequencers and control stores. -/
structure Arr where
  /-- user planes and mask-stack planes: key ((fold × 4608 + plane) × 36 + row), 36 data bits and 4 parity bits (R78) -/
  planes : SMap (BitVec 40)
  /-- working planes 4,464 to 4,575 written since the last instruction boundary (R224) -/
  work : SMap (Option (BitVec 40))
  /-- key fold × 36 + row -/
  lambs : SMap LambRow
  /-- the frame on the bridge of each die (R222) -/
  bridge : SMap (Option (BitVec 168))
  /-- the beat word each fold holds (R87) -/
  rx : SMap (Option (BitVec 121))
  /-- folds stopped by R88 -/
  dead : SMap Bool
  mseqs : SMap Mseq
  /-- control-store RAM by address, 144 bits and 16 parity bits (R209) -/
  cs : SMap (BitVec 160)
  /-- counts the instruction boundaries of each die, for the undefined working planes -/
  epoch : SMap Nat
deriving DecidableEq, Repr

def Arr.init : Arr := ⟨[], [], [], [], [], [], [], [], []⟩

/-! ### Bellwether cores (06) -/

/-- A coprocessor request that waits for its reply (R191). -/
structure CopReq where
  num : BitVec 4
  func : BitVec 14
  rd : BitVec 5
  va : Word
  vb : Word
  vd : Word
  tile : Nat
  /-- sent to the tile (in LINKED mode the vote sends it, R193) -/
  sent : Bool
  /-- on its way to the tile, or there -/
  taken : Bool
  /-- tag and channel of its packet (R300) -/
  tag : BitVec 6
  vc : Bool
deriving DecidableEq, Repr

/-- A machine check that waits for an instruction boundary: its code and TVAL, and whether MCLOG holds its record (R200, R455). -/
structure MChk where
  code : Nat
  tval : Word
  logged : Bool
deriving DecidableEq, Repr

/-- What core k holds beside W0 to W31 and Table 6-1. -/
structure Core where
  /-- the issue queue (R187) -/
  queue : List QItem
  /-- the reserved word, by its nonet address (R181) -/
  resv : Option Nat
  cop : Option CopReq
  /-- the ring requests of the load, store or atomic under way, and its word (R178, R307) -/
  xact : Xact
  ir : Word
  /-- machine checks that wait for an instruction boundary (R200) -/
  mchk : List MChk
  /-- in LINKED, the count of retired instructions at which the cores take a machine check, a stop or a FLUSH together (R81, R407, R457) -/
  runTo : Nat
  /-- a FLUSH waits for the common boundary (R457) -/
  flush : Bool
  /-- RUN := 0 was written and the stop of R536 is under way -/
  stop : Bool
  /-- RUN := 1 was written while the stop is under way (R536) -/
  rerun : Bool
  /-- a debug halt that waits for the boundary: its cause and comparator (R495) -/
  halt : Option (BitVec 6)
  /-- TALLY[63:36] as the last TALLYL read captured it (Table 6-1) -/
  tallyCap : BitVec 28
  /-- a single step is under way (R500) -/
  stepping : Bool
  /-- instructions retired since the release from reset (R497) -/
  retired : Nat
  /-- the comparators do not fire again for the instruction at PC (R499) -/
  skip : Bool
  /-- the next STC fails, after a debug halt (Table 6-11) -/
  failStc : Bool
deriving DecidableEq, Repr

def Core.init : Core :=
  { queue := [], resv := none, cop := none, xact := Xact.none, ir := 0, mchk := [], runTo := 0, flush := false, stop := false, rerun := false, halt := none, tallyCap := 0,
    stepping := false, retired := 0, skip := false, failStc := false }

structure Cpu where
  /-- W registers: key k × 32 + number -/
  w : SMap Word
  /-- special registers: key k × 32 + index -/
  sp : SMap Word
  cores : SMap Core
deriving DecidableEq, Repr

def Cpu.init : Cpu := ⟨[], [], []⟩

/-! ### Memories and corner-turn units (08, 09) -/

/-- Octets or a word that a memory port returned. -/
inductive PortRes where
  /-- bank, owner port (true) or ring port, word read, parity failed (R282, R284) -/
  | bank (b : Nat) (owner : Bool) (w : Word) (bad : Bool)
  /-- die, octets with their failure marks (R270, R272) -/
  | hbm (die : Nat) (data : List (BitVec 9))
  /-- the controller answered GONE (R276, R277) -/
  | gone (die : Nat)
  /-- the bank answered GONE: bank, owner port (true) or ring port (R287) -/
  | bankGone (b : Nat) (owner : Bool)
deriving DecidableEq, Repr

structure Mem where
  /-- scratch banks: key internal nonet address, nine data bits and the parity bit (R280) -/
  banks : SMap (BitVec 10)
  /-- HBM: key die × 2^36 + die-local offset, eight data bits and the parity bit (R271) -/
  hbm : SMap (BitVec 9)
  /-- what the last port accesses returned, oldest first -/
  ports : List PortRes
  /-- port accesses that a clear or a wipe holds, oldest first: bank, owner port and ring port (R288, R289) -/
  held : List (Nat × Option BankAcc × Option BankAcc)
  /-- TALLY at the end of the last restore of a bank's background test (R285) -/
  btDone : SMap (Option (BitVec 64))
deriving DecidableEq, Repr

def Mem.init : Mem := ⟨[], [], [], [], []⟩

/-- One corner-turn channel. -/
structure Chan where
  /-- Table 8-6 -/
  st : Nat
  /-- when it started, for the order of R252 and R253 -/
  order : Nat
  /-- words 0 to 6 of its entry, as fetched (Table 8-4) -/
  words : List Word
  /-- completion code of Table 8-5, once the channel has one -/
  code : Option Nat
  hperr : Bool
  pperr : Bool
  drop8 : Bool
  /-- R250 -/
  origin : Nat
  /-- holds its plane reservation (R254) -/
  resv : Bool
  /-- octets of the transfer, in piece order: inbound, those that HBM has given to staging; outbound, those that it has taken (R258) -/
  fill : Nat
  /-- row-slices moved over the ports -/
  moved : Nat
  /-- staged octets by index in the transfer, with a failure or poison mark in bit 8 -/
  stage : SMap (BitVec 9)
  /-- outbound writes of up to 64 octets that are queued at the HBM controllers: first die-local offset and octets -/
  wq : List (Nat × List (BitVec 9))
  /-- aborted while in DRAIN: it does not chain (R257) -/
  nochain : Bool
  /-- the descriptor fetch, and then the status write, over the ring (R248, R256) -/
  xact : Xact
deriving DecidableEq, Repr

def Chan.idle : Chan :=
  { st := 0, order := 0, words := [], code := none, hperr := false, pperr := false, drop8 := false, origin := 0,
    resv := false, fill := 0, moved := 0, stage := [], wq := [], nochain := false, xact := Xact.none }

structure Ctus where
  /-- key ((die × 9 + p) × 16 + channel) -/
  chans : SMap Chan
  /-- counts channel starts -/
  starts : Nat
deriving DecidableEq, Repr

def Ctus.init : Ctus := ⟨[], 0⟩

/-! ### Event hub and host link (13) -/

structure Evh where
  /-- level of each source of Table 13-5 -/
  levels : SMap Bool
  /-- route entries (Table 13-6) by source -/
  routes : SMap Word
  /-- armed timers, 0 to 3 (R394) -/
  armed : SMap Bool
  /-- Gander's event input rose and the rise has not been acted on (R396, R495) -/
  gaRise : Bool
deriving DecidableEq, Repr

def Evh.init : Evh := ⟨[], [], [], false⟩

/-- One DMA engine (R389). -/
structure Dma where
  /-- the descriptor under way: words 0 to 6 -/
  words : List Word
  /-- its completion code, once it has one -/
  code : Option Nat
  /-- an error halted the engine (R389) -/
  halted : Bool
  poison : Bool
  drop8 : Bool
  /-- the ring requests of the transfer, and of the marker poll (R390, R392) -/
  xact : Xact
  /-- the elements read, with their poison, that are still being written, and the code of an end before the last of them -/
  held : Option (List (BitVec 10))
  early : Option Nat
deriving DecidableEq, Repr

def Dma.idle : Dma := ⟨[], none, false, false, false, Xact.none, none, none⟩

/-- An inbound memory request of the host that the link has taken: function, BAR, offset, the data and EP of a write or the length of a
read, and its ring requests (R386). -/
structure HostReq where
  f : Nat
  bar : Nat
  off : Nat
  write : Option (List Octet × Bool)
  len : Nat
  xact : Xact
  /-- its function has been reset: its completions are discarded (R388) -/
  drop : Bool
deriving DecidableEq, Repr

structure Hst where
  /-- MSI-X tables: key (function × 128 + entry) × 4 + dword -/
  msix : SMap (BitVec 32)
  /-- pending bits by global vector (R397) -/
  pba : SMap Bool
  /-- dies with posted writes not probed yet, each after the half that sent them (R387) -/
  posted : List (Nat × Nat)
  /-- key half × 4 + engine -/
  dmas : SMap Dma
  /-- inbound requests that each half still forwards, oldest first (R386) -/
  reqs : SMap (List HostReq)
  /-- Max Payload Size and Max Read Request Size codes by function: 128 octets shifted left (Table 13-1) -/
  sizes : SMap (Nat × Nat)
  /-- Uncorrectable Error Status of AER by function (Table 13-1, R18) -/
  aer : SMap (BitVec 32)
deriving DecidableEq, Repr

def Hst.init : Hst := ⟨[], [], [], [], [], [], []⟩

/-! ### Rings (10) -/

/-- A packet that is on its way to its destination stop, or that this stop has ejected (`here`) and its block has not served yet. -/
structure Fly where
  opc : Nat
  k : Pkt
  here : Bool
  /-- the coprocessor request that a COP packet carries; which tile of its stop it is for stands in no header field of Table 10-2 -/
  cop : Option CopReq
deriving DecidableEq, Repr

/-- A request that expects an answer, at the stop of its initiator (R300, R315). -/
structure Owed where
  stop : Nat × Nat
  tag : BitVec 6
  opc : Nat
  init : Nat
  /-- a transfer of a block waits for it, or else a command made it -/
  block : Bool
deriving DecidableEq, Repr

structure Ring where
  /-- packets under way, oldest first: those that circulate past a stop in reconfiguration, that XR holds, that wait at a target, and the
  responses (R294, R306, R312) -/
  flight : List Fly
  owed : List Owed
  /-- what each stop has delivered for the requests of commands, oldest first, with its opcode -/
  got : List (Nat × Pkt)
  /-- what each stop has delivered for the transfers of blocks and they have not used yet -/
  answers : List (Nat × Pkt)
  /-- quarantined tags by stop (R315) -/
  quar : List ((Nat × Nat) × BitVec 6)
  /-- GNTTAB or GNTEN as last applied, by ring: slots 16 to 143 (R303) -/
  grants : SMap Word
deriving DecidableEq, Repr

def Ring.init : Ring := ⟨[], [], [], [], [], []⟩

/-! ### Rim fabric (11) -/

/-- What a cell holds once its current cycle ends, with its port action (R325, R345). -/
structure CellNext where
  o : Word
  u : Word
  v : Word
  cf : Bool
  ipc : Nat
  act : Option (Nat × Word)
deriving DecidableEq, Repr

/-- One cell (Table 11-1): its program, registers and selectors, and what its current cycle leaves. -/
structure Cell where
  ir : List Word
  len : Nat
  ipc : Nat
  o : Word
  u : Word
  v : Word
  cf : Bool
  xs : Nat
  ys : Nat
  zs : Nat
  /-- the instruction of the current cycle has run (R325) -/
  pend : Option CellNext
deriving DecidableEq, Repr

/-- A cell with no configuration: idle, all state zero (Table 11-6). -/
def Cell.idle : Cell :=
  { ir := List.replicate 8 0, len := 0, ipc := 0, o := 0, u := 0, v := 0, cf := false, xs := 0, ys := 0, zs := 0, pend := none }

/-- A clock of a tile: the number of the cycle to run, the input ports as latched when its first cell runs, and the two stages of the
synchroniser of what comes from the other clock, each by crossbar code (R327, R336). -/
structure Dom where
  n : Nat
  ports : List Word
  s1 : List (Nat × Word)
  s2 : List (Nat × Word)
deriving DecidableEq, Repr

def Dom.start : Dom := ⟨0, [], [], []⟩

/-- One tile: its configuration, its cells and its ports. The state code, LERR, FROZEN and the slots of the page are registers. -/
structure Tile where
  cells : SMap Cell
  insel : List Nat
  /-- LDRV of west lanes 0 to 7 and east lanes 0 to 7, bits [35:18] of the image words -/
  ldrv : List Word
  clkImg : Word
  ppImg : List Word
  linkW : Bool
  linkE : Bool
  /-- CFGBASE as the load read it -/
  base : Nat
  /-- CLK as the trees apply it (R335) -/
  clk : Word
  tck : Dom
  ref25 : Dom
  /-- for each tree, the cycles of its source in its current cycle, and the level of a probe pin of the tree (R334, R350) -/
  pos : List Nat
  lvl : List Bool
  /-- the GO write that committed the tile (R333) -/
  goId : Nat
  /-- the current coprocessor request with its bellwether, and those that wait (R344) -/
  cur : Option (Nat × CopReq)
  waiting : List (Nat × CopReq)
  sin : List Word
  sout : List Word
  /-- an SOUTF has asked for the words held to be sent (R348) -/
  flushed : Bool
  /-- lane contributions and enables at the end of the cycle before the last one (R332, R333) -/
  drive : List (Option Word)
deriving DecidableEq, Repr

def Tile.unconf : Tile :=
  { cells := [], insel := [], ldrv := [], clkImg := 0, ppImg := [0, 0], linkW := false, linkE := false, base := 0, clk := 0, tck := Dom.start,
    ref25 := Dom.start, pos := [0, 0, 0, 0], lvl := [false, false, false, false], goId := 0, cur := none, waiting := [], sin := [],
    sout := [], flushed := false, drive := [] }

structure Fab where
  tiles : SMap Tile
  /-- counts GO writes that commit -/
  gos : Nat
deriving DecidableEq, Repr

def Fab.init : Fab := ⟨[], 0⟩

/-! ### Collies (12) -/

/-- A shift handed to a shift unit: out, in, steps left, and the time that AT gave it (R364, R370). -/
structure Shift where
  out : Bool
  inp : Bool
  n : Nat
  at? : Option Word
deriving DecidableEq, Repr

/-- What a channel waits for (R367, R370, R371). -/
inductive CWait where
  | pin (cond pin : Nat) (prev : Option Bool)
  | flag (f : Nat) (v consume : Bool)
  | event (e : Nat) (consume : Bool)
  | atPin (t : Word) (act mask : Nat)
  | pull (gd : Nat)
  | push (v : Word)
deriving DecidableEq, Repr

/-- One channel of an engine (R355). -/
structure CChan where
  /-- 0 IDLE, 1 LOAD, 2 running, 5 SYNCW; WAIT and STALL read from `wait` and `stalled` -/
  st : Nat
  half : Bool
  /-- PC, 2,048 when it has stepped past the store -/
  pc : Nat
  /-- words 0 to 6 of the entry and the base of the table it came from -/
  entry : List Word
  base : Nat
  g : List Word
  /-- first and last instruction of a running loop body and the times left -/
  loop : Option (Nat × Nat × Nat)
  ser : Word
  sern : Nat
  des : Word
  desn : Nat
  /-- the word that found the input queue full (R366) -/
  held : Option Word
  outq : List Word
  inq : List Word
  run : Option Shift
  queued : Option Shift
  stalled : Bool
  wait : Option CWait
  /-- the time that AT gave the next instruction -/
  timed : Option Word
  stampW : BitVec 64
  stampA : BitVec 64
  events : BitVec 16
  /-- PC of a pending normal swap -/
  swap : Option Nat
  /-- forced swaps before the channel runs: whether its half changes, and the PC (R374) -/
  redirect : Option (Bool × Nat)
  /-- tick of a boundary of the step grid, and whether the grid restarts once the shift unit is idle (R363, R377) -/
  grid : BitVec 64
  regrid : Bool
  /-- started by ARM (R377) -/
  sync : Bool
deriving DecidableEq, Repr

def CChan.init : CChan :=
  { st := 0, half := false, pc := 0, entry := [], base := 0, g := [0, 0, 0, 0], loop := none, ser := 0, sern := 0, des := 0, desn := 0,
    held := none, outq := [], inq := [], run := none, queued := none, stalled := false, wait := none, timed := none, stampW := 0,
    stampA := 0, events := 0, swap := none, redirect := none, grid := 0, regrid := false, sync := false }

structure Col where
  /-- key engine × 16 + channel -/
  chans : SMap CChan
  /-- program stores: key engine × 4,096 + address, 18 bits and two parity bits (R373) -/
  ps : SMap (BitVec 20)
  /-- output enable and level of each pin: key 9 × engine + pin -/
  pins : SMap (Bool × Bool)
  /-- TCMP0 to TCMP3 written and not reached yet: key engine × 4 + i -/
  tcmp : SMap Bool
  /-- the channel that each engine served last; 15 after a reset (R357, log entry 14) -/
  last : SMap Nat
deriving DecidableEq, Repr

def Col.init : Col := ⟨[], [], [], [], []⟩

/-! ### Gander (18) -/

structure Dbg where
  /-- OWN, PSTAT.CODE and REFUSED, ARG, RES and BUF by slot of the debug port (Table 18-1) -/
  port : SMap Word
  /-- the CMD word of the running command -/
  cmd : Option Word
  /-- TX and RX of each core, while TXFULL and RXFULL are 1 (R507) -/
  tx : SMap (Option Word)
  rx : SMap (Option Word)
  /-- the ring requests of the running command, as its arguments gave them when it started (R492, R493, R509) -/
  reqs : List (Nat × Pkt)
  xact : Xact
  /-- DATA and DONE that Capture-DR of GDBG loads (R491) -/
  jdata : Word
  jdone : Bool
deriving DecidableEq, Repr

def Dbg.init : Dbg := ⟨[], none, [], [], [], Xact.none, 0, false⟩

/-! ### Modes, power, clocks (14, 15) -/

/-- One clock island of Table 15-5: its clock decision, margins and temperature (R431 to R443). -/
structure Island where
  step : Nat
  plan : Nat
  /-- TSTEP while a thermal step-down is in force -/
  tstep : Option Nat
  /-- the release of R435 has begun -/
  rising : Bool
  thold : Bool
  trip : Bool
  exh : Bool
  /-- rails whose dip holds the island at half clock -/
  hsup : List Nat
  /-- the replica delay of the latest measurement, in 1/2^20 of a nominal cycle (R438) -/
  delay : Nat
  m2g : Nat
  m2gmin : Nat
  mnow : Nat
  temp : BitVec 8
  tmax : BitVec 8
  /-- consecutive measurements above PLAN (R439) -/
  up : Nat
  /-- measured since POR -/
  seen : Bool
deriving DecidableEq, Repr

/-- After POR: step 0, nothing measured (R441). -/
def Island.init : Island :=
  { step := 0, plan := 0, tstep := none, rising := false, thold := false, trip := false, exh := false, hsup := [], delay := 0, m2g := 0,
    m2gmin := 0, mnow := 0, temp := 0, tmax := 0, up := 0, seen := false }

/-- A rail in a dip (R425, R426): whether it stands above 96 % again, and the next group to leave half clock. -/
structure Rail where
  dip : Bool
  ended : Bool
  group : Nat
deriving DecidableEq, Repr

structure Pwr where
  /-- mode OFF: only the always-on domain has power -/
  off : Bool
  islands : SMap Island
  rails : SMap Rail
  /-- PERTURB of each page as last applied (R55) -/
  pert : SMap Word
  /-- target of a change of mode that is under way (R405) -/
  target : Option Nat
  /-- the clearing of R83 runs, and the change or BOOT waits for it -/
  clearing : Bool
  /-- BOOT runs its last step -/
  booting : Bool
  /-- an instruction was abandoned by the change (R405) -/
  abandoned : Bool
  /-- QMODE.RETAIN as read at entry to QUIESCENT (R410) -/
  retain : Bool
  /-- bit 10k + x: column x of FDk has been marked failed by a fold test of MAINTENANCE, or a rebuild; the next map in use -/
  marks : BitVec 40
  /-- VDD_AON holds the always-on domain in reset (R428) -/
  aonLost : Bool
  /-- causes that have arisen since OFF was entered (R413) -/
  causes : List Nat
deriving DecidableEq, Repr

def Pwr.init : Pwr :=
  { off := true, islands := [], rails := [], pert := [], target := none, clearing := false, booting := false, abandoned := false,
    retain := true, marks := 0, aonLost := false, causes := [1] }

/-! ### Pins, management and JTAG (18, 19) -/

structure Pins where
  /-- SYS_READY (R518) -/
  ready : Bool
  /-- THERM_ALERT_N is pulled low (R518) -/
  alert : Bool
  /-- an in-band interrupt is pending at the I3C target (R521) -/
  ibiPending : Bool
  /-- page and slot selected at the I²C (false) and I3C (true) targets -/
  sel : SMap (Nat × Nat)
  /-- the TAP instruction and the boundary-scan register (R529) -/
  ir : BitVec 6
  bsr : BitVec 303
deriving DecidableEq, Repr

/-! ### Security (17) -/

/-- Fuses blown since manufacture, over what Ezpor blew (log entry 5), and what Thonos keeps. -/
structure Sec where
  /-- LCS as blown by a LIFECYCLE command -/
  lcs : Option Nat
  arc : Option Nat
  revoke : BitVec 6
  /-- key hashes by slot 4, 5 and debug hashes by 8 + 2, 8 + 3, once PROVISIONED is entered -/
  hashes : SMap (List Octet)
  idkill : Bool
  /-- generations of the repair map that are written, oldest first (R416) -/
  maps : List (BitVec 40)
  /-- flash contents by address; an erased octet reads 0xFF -/
  flash : SMap Octet
  /-- result codes of slots A and B at the last BOOT -/
  codes : List Nat
  slotDiff : Bool
  /-- header of the booted image, octets 0x000 to 0x29F -/
  booted : List Octet
  treset : Bool
  dbgDeny : Bool
  nonce : Option (List Octet)
  /-- TALLY when the open nonce was drawn -/
  nonceAt : BitVec 64
  fails : Nat
  dbgSince : Bool
  tamperSince : Bool
  /-- active tamper sources, Table 17-9 -/
  active : List Nat
  /-- tamper log of the always-on domain -/
  tlog : List Nat
  /-- initiator of the running command -/
  sender : Option Nat
  /-- what follows the wipe of the secure bank under way: nothing, device reset THONOS (R486), or the answer of LIFECYCLE and then the
  reset (R477) -/
  afterWipe : Option Bool
deriving DecidableEq, Repr

def Sec.init : Sec :=
  { lcs := none, arc := none, revoke := 0, hashes := [], idkill := false, maps := [], flash := [], codes := [0, 0],
    slotDiff := false, booted := [], treset := false, dbgDeny := false, nonce := none, nonceAt := 0, fails := 0,
    dbgSince := false, tamperSince := false, active := [], tlog := [], sender := none, afterWipe := none }

/-! ### What leaves the device -/

/-- What the device sends outside, in order (log entry 9). -/
inductive Out where
  /-- an MSI-X message of a function's vector: address and data of its table entry (R397) -/
  | msix (func vector addr data : Nat)
  /-- a completion to the host: its status (0 success, 1 unsupported request, 2 completer abort), EP and data (R382, R386) -/
  | cpl (status : Nat) (poison : Bool) (data : List Octet)
  /-- a memory write TLP of a DMA engine: host address, data, poisoned (R389, R391) -/
  | tlpWrite (func addr : Nat) (data : List Octet) (poison : Bool)
  /-- an in-band interrupt of the I3C target (R521) -/
  | ibi (addr : Nat)
  /-- octets returned by a management target (R520) -/
  | mgmt (data : List Octet)
  /-- a level that a collie pin is driven to: engine, pin, level (R365, R369) -/
  | pin (e p : Nat) (level : Bool)
deriving DecidableEq, Repr

/-! ### The device -/

structure Chip where
  /-- the register file of the block pages: key page × 512 + slot -/
  regs : SMap Word
  arr : Arr
  cpu : Cpu
  mem : Mem
  ctu : Ctus
  evh : Evh
  hst : Hst
  ring : Ring
  fab : Fab
  col : Col
  dbg : Dbg
  pwr : Pwr
  pins : Pins
  sec : Sec
  /-- TALLY (R430) -/
  tally : BitVec 64
  /-- HUB.TALLYH as the last TALLYL read captured it (R448) -/
  tallyCap : BitVec 28
  /-- event-output levels on their way to the event hub (R302), oldest first -/
  evls : List (Nat × Bool)
  /-- what has been sent outside, oldest first (log entry 9) -/
  out : List Out
  /-- the counter that free values are drawn at (log entry 4) -/
  free : Nat
deriving DecidableEq, Repr

/-- Right after POR, in OFF: RSEEN holds the POR (R413). -/
def Chip.reset : Chip :=
  { regs := [(4 * 512 + 17, 2)], arr := Arr.init, cpu := Cpu.init, mem := Mem.init, ctu := Ctus.init, evh := Evh.init, hst := Hst.init,
    ring := Ring.init, fab := Fab.init, col := Col.init, dbg := Dbg.init, pwr := Pwr.init,
    pins := { ready := false, alert := false, ibiPending := false, sel := [], ir := 1, bsr := 0 }, sec := Sec.init, tally := 0, tallyCap := 0, evls := [], out := [], free := 0 }

/-- The machine: the device and the commands that wait, first in, first out. -/
structure State where
  chip : Chip
  pending : List Instr
deriving DecidableEq, Repr

/-- No step of this model faults: every refusal of the device is an effect on the state (R53, R177, R297). -/
inductive Fault where
deriving DecidableEq, Repr

/-- Reasons for which a command has no meaning. -/
inductive Refusal where
  /-- Raised by the dispatcher for a command that this model gives no meaning. Safe: the model stops where the device goes on. -/
  | notModelled (mnemonic : String)
deriving DecidableEq, Repr

def State.reset : State := { chip := Chip.reset, pending := [] }

end Sys2Proof.Machine
end

