-- ==== Sys2Proof/Machine/Ops.lean ====
section
/-!
DEFINITION. The named operations over registers, events, logs and cores that every command is written with, and taking
and leaving a trap (R196, R197).
-/
namespace Sys2Proof.Machine

/-- A command that always completes: its effect on the device. -/
def State.run (f : Chip → Chip) (s : State) : Host.Outcome State Fault Refusal := .next { s with chip := f s.chip }

/-! ### Page numbers (Table 2-4) -/

def pgHub : Nat := 0
def pgFlock : Nat := 1
def pgVote : Nat := 2
def pgEvh : Nat := 3
def pgAon : Nat := 4
def pgBw (k : Nat) : Nat := 8 + k
def pgWdg (k : Nat) : Nat := 12 + k
def pgMseq (k : Nat) : Nat := 16 + k
def pgDrove (r : Nat) : Nat := 20 + r
def pgTile (t : Nat) : Nat := 24 + t
def pgCollie (e : Nat) : Nat := 32 + e
def pgPcie (h : Nat) : Nat := 40 + h
def pgPf (f : Nat) : Nat := 42 + f
def pgBank (b : Nat) : Nat := 48 + b
def pgBoard : Nat := 57
def pgThonos : Nat := 58
def pgGander : Nat := 59
def pgStop (r s : Nat) : Nat := 64 + 16 * r + s
def pgFold (die col row : Nat) : Nat := 1024 + 512 * die + 24 * col + row
def pgCtu (die p : Nat) : Nat := 1264 + 512 * die + p
def pgHbmc (die m : Nat) : Nat := 1274 + 512 * die + m
def pgDie (die : Nat) : Nat := 1276 + 512 * die

/-! ### Registers -/

/-- The word that slot `s` of page `p` holds. -/
def Chip.reg (c : Chip) (p s : Nat) : Word := SMap.get regDefault c.regs (regKey p s)
def Chip.setReg (c : Chip) (p s : Nat) (v : Word) : Chip := { c with regs := SMap.set regDefault c.regs (regKey p s) v }
/-- Field [lo + n − 1 : lo] of slot `s` of page `p`. -/
def Chip.fld (c : Chip) (p s lo n : Nat) : Nat := fieldOf (c.reg p s) lo n
def Chip.setFld (c : Chip) (p s lo n v : Nat) : Chip := c.setReg p s (withField (c.reg p s) lo n v)
def Chip.flag (c : Chip) (p s b : Nat) : Bool := bitAt (c.reg p s) b
def Chip.setFlag (c : Chip) (p s b : Nat) (v : Bool) : Chip := c.setFld p s b 1 v.toNat
/-- Every register of the pages that `q` names takes its reset value (R16). -/
def Chip.resetPages (c : Chip) (q : Nat → Bool) : Chip := { c with regs := SMap.drop (fun key => q (key / 512)) c.regs }

/-- A counter field that saturates. -/
def Chip.satAdd (c : Chip) (p s lo n amount : Nat) : Chip :=
  c.setFld p s lo n (min (c.fld p s lo n + amount) (2 ^ n - 1))
/-- A whole-slot counter that saturates at 0o777_777_777_777. -/
def Chip.count (c : Chip) (p s amount : Nat) : Chip := c.satAdd p s 0 36 amount

/-! ### Events (R54, R302) -/

/-- The event output of a page: some bit is 1 in both EV_PEND and EV_EN. -/
def Chip.evOut (c : Chip) (p : Nat) : Bool := (c.reg p 6 &&& c.reg p 5) != 0

/-- The level change that a page sends as an EVL packet, and the in-band interrupt on a rise of the AON output; one waits at most until
the target has a dynamic address (R521). -/
def Chip.sendEvl (c : Chip) (p : Nat) (before : Bool) : Chip :=
  let now := c.evOut p
  if now == before then c
  else
    let c := { c with evls := c.evls ++ [(p, now)] }
    if p == pgAon && now && c.flag pgBoard 2 0 then
      (if c.fld pgBoard 3 10 7 ≠ 0 then { c with out := c.out ++ [.ibi (c.fld pgBoard 3 10 7)] }
       else { c with pins := { c.pins with ibiPending := true } })
    else c

/-- A write of EV_EN or EV_PEND, with the EVL packet that it sends. -/
def Chip.setEv (c : Chip) (p s : Nat) (v : Word) : Chip := (c.setReg p s v).sendEvl p (c.evOut p)

/-- Some pages take their reset values while their ring stop serves on, so that an event output that falls is sent (R16, R302). -/
def Chip.restartPages (c : Chip) (ps : List Nat) : Chip :=
  ps.foldl (fun d p => d.sendEvl p (c.evOut p)) (c.resetPages ps.contains)

/-- The events of `mask` occur on page `p`. -/
def Chip.raiseMask (c : Chip) (p : Nat) (mask : Word) : Chip := c.setEv p 6 (c.reg p 6 ||| mask)
/-- Event `e` occurs on page `p` (R54). -/
def Chip.raise (c : Chip) (p e : Nat) : Chip := c.raiseMask p (BitVec.ofNat 36 (2 ^ e))

/-! ### Logs (R534) and refusals (R52, R53) -/

/-- One event of a log slot: captured when VALID is 0, else MORE where the log has it. -/
def Chip.log (c : Chip) (p s : Nat) (hasMore : Bool) (rec : Word) : Chip :=
  if c.flag p s 35 then (if hasMore then c.setFlag p s 34 true else c)
  else c.setReg p s (withField (withField rec 34 1 (if hasMore then 0 else fieldOf rec 34 1)) 35 1 1)

/-- Several failures found at once, in the order in which the log captures them. -/
def Chip.logAll (c : Chip) (p s : Nat) (hasMore : Bool) (recs : List Word) : Chip :=
  recs.foldl (fun c r => c.log p s hasMore r) c

/-- A refused write: ERR, and ERRCAUSE and ERRSLOT when ERR changes from 0 to 1 (R52). -/
def Chip.refuse (c : Chip) (p s cause : Nat) : Chip :=
  if c.flag p 3 35 then c
  else c.setReg p 3 (withField (withField (withField (c.reg p 3) 35 1 1) 33 2 cause) 24 9 s)

/-! ### Free values (log entry 4) -/

/-- The next free value, and the state after it is drawn. -/
def Chip.draw (c : Chip) : Word × Chip := (Config.freeWord c.free, { c with free := c.free + 1 })

/-! ### Modes and geometry (R21 to R31, Table 14-1) -/

def modeOff : Nat := 0
def modeBoot : Nat := 1
def modeLinked : Nat := 2
def modeSplit : Nat := 3
def modeMaint : Nat := 4
def modeQuiescent : Nat := 5

/-- HUB.MODE.CUR. -/
def Chip.mode (c : Chip) : Nat := c.fld pgHub 18 3 3
def Chip.setMode (c : Chip) (m : Nat) : Chip := c.setFld pgHub 18 3 3 m
/-- The flock is the LINKED one: in LINKED, and in QUIESCENT entered from it. -/
def Chip.linked (c : Chip) : Bool :=
  c.mode == modeLinked || (c.mode == modeQuiescent && c.fld pgHub 18 12 3 == modeLinked)

/-- The physical columns of die `k` that hold its logical fold columns, in order (COLMAP, R535). -/
def Chip.dieCols (c : Chip) (k : Nat) : List Nat :=
  (List.range 9).filterMap (fun p => let x := c.fld (pgDie k) 16 (4 * p) 4; if x = 15 then none else some x)

/-- The dies that the flock of bellwether `k` spans (R21). -/
def Chip.flockDies (c : Chip) (k : Nat) : List Nat := if c.linked then [0, 1, 2, 3] else [k]

/-- The fold columns of the flock of bellwether `k`, as (die, physical column), from flock fold column 0 (R21). -/
def Chip.flockCols (c : Chip) (k : Nat) : List (Nat × Nat) :=
  (c.flockDies k).flatMap (fun d => (c.dieCols d).map (fun x => (d, x)))

/-- The cores that act as one with core `k`: all four in LINKED. -/
def Chip.flockCores (c : Chip) (k : Nat) : List Nat := if c.linked then [0, 1, 2, 3] else [k]

/-! ### Cores: general and special registers -/

/-- W(r) of core k; W0 reads zero (R161). -/
def Chip.w (c : Chip) (k : Nat) (r : BitVec 5) : Word :=
  if r = 0 then 0 else SMap.get (fun _ => 0) c.cpu.w (k * 32 + r.toNat)
/-- A write of W(r); a write of W0 is discarded (R161). -/
def Chip.setW (c : Chip) (k : Nat) (r : BitVec 5) (v : Word) : Chip :=
  if r = 0 then c else { c with cpu := { c.cpu with w := SMap.set (fun _ => 0) c.cpu.w (k * 32 + r.toNat) v } }

/-- The pair W(b), W(b + 1) as a double (R162). -/
def Chip.pair (c : Chip) (k : Nat) (b : BitVec 5) : Double := c.w k (b + 1) ++ c.w k b
def Chip.setPair (c : Chip) (k : Nat) (b : BitVec 5) (v : Double) : Chip :=
  (c.setW k b (v.setWidth 36)).setW k (b + 1) ((v >>> 36).setWidth 36)

def srPC : Nat := 0
def srPSW : Nat := 1
def srFPSW : Nat := 2
def srTPC : Nat := 3
def srTPSW : Nat := 4
def srTCAUSE : Nat := 5
def srTVAL : Nat := 6
def srTBASE : Nat := 7
def srBELL : Nat := 8
def srCOUNT : Nat := 9
def srFIRST : Nat := 10
def srLCNT : Nat := 11
def srLBEG : Nat := 12
def srLEND : Nat := 13
def srIPEND : Nat := 14
def srMSDEPTH : Nat := 15

/-- Reset values of Table 6-1: FIRST all ones, the rest zero. -/
def srDefault (key : Nat) : Word := if key % 32 = srFIRST then BitVec.allOnes 36 else 0
/-- A special register of core k as it is held. -/
def Chip.sr (c : Chip) (k i : Nat) : Word := SMap.get srDefault c.cpu.sp (k * 32 + i)
def Chip.setSr (c : Chip) (k i : Nat) (v : Word) : Chip :=
  { c with cpu := { c.cpu with sp := SMap.set srDefault c.cpu.sp (k * 32 + i) v } }

def Chip.core (c : Chip) (k : Nat) : Core := SMap.get (fun _ => Core.init) c.cpu.cores k
def Chip.setCore (c : Chip) (k : Nat) (x : Core) : Chip :=
  { c with cpu := { c.cpu with cores := SMap.set (fun _ => Core.init) c.cpu.cores k x } }

def Chip.pc (c : Chip) (k : Nat) : Word := c.sr k srPC
def Chip.setPc (c : Chip) (k : Nat) (v : Word) : Chip := c.setSr k srPC v

/-- PSW bits (Table 6-2). -/
def pswC : Nat := 0
def pswV : Nat := 1
def pswLA : Nat := 2
def pswIE : Nat := 3
def pswTH : Nat := 9
def Chip.psw (c : Chip) (k b : Nat) : Bool := bitAt (c.sr k srPSW) b
def Chip.setPsw (c : Chip) (k b : Nat) (v : Bool) : Chip := c.setSr k srPSW (withField (c.sr k srPSW) b 1 v.toNat)
def Chip.ipl (c : Chip) (k : Nat) : Nat := fieldOf (c.sr k srPSW) 4 5
/-- The write of PSW.C and PSW.V (R136). -/
def Chip.setCV (c : Chip) (k : Nat) (cy v : Bool) : Chip := (c.setPsw k pswC cy).setPsw k pswV v

/-- Flags are ORed into FPSW (R148). -/
def Chip.orFpsw (c : Chip) (k : Nat) (fl : FFlags) : Chip :=
  c.setSr k srFPSW (c.sr k srFPSW ||| BitVec.ofNat 36 fl.bits)

/-- BW.STAT bits (Table 6-15). -/
def Chip.running (c : Chip) (k : Nat) : Bool := c.flag (pgBw k) 3 0
def Chip.halted (c : Chip) (k : Nat) : Bool := c.flag (pgBw k) 3 1
def Chip.dfault (c : Chip) (k : Nat) : Bool := c.flag (pgBw k) 3 3
def Chip.istop (c : Chip) (k : Nat) : Bool := c.flag (pgBw k) 3 4

/-- R181: the reservation of core k ends. -/
def Chip.dropResv (c : Chip) (k : Nat) : Chip := c.setCore k { c.core k with resv := none }

/-! ### Taking a trap and returning from one (R194 to R197, R204) -/

/-- TCAUSE of an entry (R194). -/
def tcause (intr : Bool) (code : Nat) : Word := BitVec.ofNat 36 (intr.toNat <<< 35 + code)

/-- The double fault of R204: the core stops and keeps every register. -/
def doubleFault (k : Nat) (c : Chip) : Chip := (c.setFlag (pgBw k) 3 3 true).raise (pgBw k) 0

/-- What every entry does once it is taken (R196): `level` is the interrupt level of an interrupt entry. -/
def enter (k : Nat) (level : Option Nat) (cause tpc tval : Word) (vector : Nat) (c : Chip) : Chip :=
  let psw := c.sr k srPSW
  let c := (((c.setSr k srTPC tpc).setSr k srTPSW psw).setSr k srTCAUSE cause).setSr k srTVAL tval
  let c := c.dropResv k
  let psw' := withField (withField (withField psw pswTH 1 1) pswIE 1 0) pswLA 1 0
  let psw' := match level with | some l => withField psw' 4 5 (l + 1) | none => psw'
  let c := (c.setSr k srPSW psw').setFlag (pgBw k) 3 2 false
  c.setPc k (c.sr k srTBASE + BitVec.ofNat 36 (0o20 * vector))

/-- A synchronous trap of core k with the code and value of Table 6-13: vector 0, or a double fault (R196). -/
def trapEntry (k code : Nat) (tpc tval : Word) (c : Chip) : Chip :=
  if c.psw k pswTH then doubleFault k c else enter k none (tcause false code) tpc tval 0 c

/-- A machine check taken at the boundary before the instruction at PC: vector 1 (R196, R200). -/
def mchkEntry (k code : Nat) (tval : Word) (c : Chip) : Chip :=
  if c.psw k pswTH then doubleFault k c
  else (enter k none (tcause false code) (c.pc k) tval 1 c).raise (pgBw k) 1

/-- An interrupt of level `l`, with TPC as given (R196, R198). DESIGN CHOICE (log entry 10): TVAL takes 0, because Table 6-13 gives an
interrupt no value. -/
def interruptEntry (k l : Nat) (tpc : Word) (c : Chip) : Chip := enter k (some l) (tcause true l) tpc 0 (2 + l) c

/-- RTI (R197). DESIGN CHOICE (log entry 10): a reserved IPL (17 to 31) in TPSW is loaded as it stands. -/
def returnFromTrap (k : Nat) (c : Chip) : Chip :=
  ((c.setPc k (c.sr k srTPC)).setSr k srPSW (c.sr k srTPSW &&& 0x3ff)).dropResv k

/-! ### Machine checks (R189, R200, R454 to R456) -/

/-- Core k has not reached the boundary at which the LINKED cores act together (R81, R214, R407, R457). -/
def Chip.behind (c : Chip) (k : Nat) : Bool :=
  c.linked && c.running k && !c.dfault k && !c.halted k && decide ((c.core k).retired < (c.core k).runTo)
/-- The most instructions that a core of the flock has retired. -/
def Chip.farthest (c : Chip) (k : Nat) : Nat := (c.flockCores k).foldl (fun m j => max m (c.core j).retired) 0
/-- The cores of the flock act together at the boundary of the one that is farthest. -/
def alignCores (k : Nat) (c : Chip) : Chip :=
  (c.flockCores k).foldl (fun c' j => c'.setCore j { c'.core j with runTo := c.farthest k }) c

/-- The record of MCLOGk (Table 16-4). -/
def mclogRec (cls die pcol frow : Nat) : Word :=
  withField (withField (withField (withField 0 31 3 cls) 29 2 die) 25 4 pcol) 20 5 frow

/-- A cause of Table 16-3 for the flock of bellwether `k`: counted, logged, and, unless issue is stopped already, issue
stops and each core of the flock has it pending. A control cause goes before a data cause that no core has taken yet
(R455, R456). One that arrives with TH = 1 is a double fault, to which no other rule applies (R455; log entry 10): the boundary
is that of the core that is farthest. -/
def machineCheck (k cls die pcol frow code : Nat) (tval : Word) (c : Chip) : Chip :=
  let p := if c.linked then 17 else 17 + k
  let rec0 := mclogRec cls die pcol frow
  let first := ((c.flockCores k).find? (fun j => (c.core j).retired == c.farthest k)).getD k
  let pend (stop logged : Bool) (c : Chip) : Chip := (c.flockCores k).foldl (fun c j =>
    let c := if stop then c.setFlag (pgBw j) 3 4 true else c
    c.setCore j { c.core j with mchk := (c.core j).mchk ++ [⟨code, tval, logged⟩] }) (alignCores k c)
  if !c.istop k && c.psw first pswTH then pend false false c
  else
    let c := (c.count pgFlock 26 1).raise pgFlock 0
    if c.istop k then
      match (if code = 0o041 then (c.core k).mchk.find? (fun x => x.code == 0o040) else none) with
      | some x =>
        let c := if c.flag pgFlock p 35 && x.logged then c.setReg pgFlock p (withField rec0 34 2 3) else c.log pgFlock p true rec0
        (c.flockCores k).foldl (fun c j => c.setCore j { c.core j with mchk := [⟨code, tval, x.logged⟩] }) c
      | none => if c.flag pgFlock p 35 then c.setFlag pgFlock p 34 true else c
    else pend true (!c.flag pgFlock p 35) (c.log pgFlock p true rec0)

/-- A data machine check of class PLANE or FOLD, naming the fold (R81, R440). -/
def dataCheck (k cls die pcol frow : Nat) (c : Chip) : Chip := machineCheck k cls die pcol frow 0o040 0 c
/-- A control machine check (R200). -/
def controlCheck (k cls die pcol frow : Nat) (tval : Word) (c : Chip) : Chip :=
  machineCheck k cls die pcol frow 0o041 tval c

/-! ### CRC codes (R211, R222) -/

/-- One bit of a reflected CRC-32 (IEEE 802.3). -/
def crc32Bit (s : BitVec 32) (b : Bool) : BitVec 32 :=
  let x := s.getLsbD 0 ^^ b
  if x then (s >>> 1) ^^^ 0xEDB88320#32 else s >>> 1
/-- CRC-32 register after the low `n` bits of `v`, from bit 0 upward. -/
def crc32Fold (s : BitVec 32) (v n : Nat) : BitVec 32 :=
  (List.range n).foldl (fun s i => crc32Bit s (v.testBit i)) s
/-- One bit of the CRC-16 of R222, most significant bit of the register first. -/
def crc16Bit (s : BitVec 16) (b : Bool) : BitVec 16 :=
  if s.getLsbD 15 ^^ b then (s <<< 1) ^^^ 0x1021#16 else s <<< 1
/-- The check code over bits [151:0] of a frame, from bit 151 down. -/
def crc16 (v : BitVec 152) : BitVec 16 :=
  (List.range 152).foldl (fun s i => crc16Bit s (v.getLsbD (151 - i))) 0xFFFF#16

end Sys2Proof.Machine
end

