-- ==== Sys2Proof/Machine/Mem.lean ====
section
/-!
DEFINITION. The scratch banks and HBM: addresses, parity, reads, writes, atomics, and what a failed check logs.
Spec: R62, R79, R181, R267 to R290.
-/
namespace Sys2Proof.Machine

/-! ### Parity -/

/-- Even parity over the low `n` bits. -/
def parityOf (n : Nat) (v : Nat) : Bool := (List.range n).foldl (fun p i => p ^^ v.testBit i) false
/-- A nonet with its parity bit; `inv` stores the inverse (R79, R273). -/
def nonetCell (v : Nonet) (inv : Bool) : BitVec 10 := (BitVec.ofBool (parityOf 9 v.toNat ^^ inv)) ++ v
def nonetBad (x : BitVec 10) : Bool := parityOf 10 x.toNat
/-- An octet with its parity bit (R271). -/
def octetCell (v : Octet) (inv : Bool) : BitVec 9 := (BitVec.ofBool (parityOf 8 v.toNat ^^ inv)) ++ v
def octetBad (x : BitVec 9) : Bool := parityOf 9 x.toNat

/-! ### Scratch banks (Table 2-6, Table 9-3) -/

def bankBase : Nat → Nat
  | 4 => 0o100000000
  | 5 => 0o120000000
  | 6 => 0o130000000
  | 7 => 0o135000000
  | 8 => 0o134000000
  | b => b * 0o20000000

def bankWords : Nat → Nat
  | 5 => 524288
  | 6 => 262144
  | 7 => 65536
  | 8 => 65536
  | _ => 1048576

/-- The bank that holds an internal address (R62). -/
def bankAt (a : Nat) : Option Nat :=
  (List.range 9).find? (fun b => decide (bankBase b ≤ a) && decide (a < bankBase b + 4 * bankWords b))

/-- Whether `n` words from nonet address `a` lie within bank `b`. -/
def inBank (b a n : Nat) : Bool := decide (bankBase b ≤ a) && decide (a + 4 * n ≤ bankBase b + 4 * bankWords b)

def bankOn (c : Chip) (b : Nat) : Bool := c.fld (pgBank b) 3 3 2 == 0
def bankClearing (c : Chip) (b : Nat) : Bool := c.flag (pgBank b) 3 0
def bankWiping (c : Chip) (b : Nat) : Bool := b == 7 && c.flag (pgBank b) 3 2

def Chip.cell (c : Chip) (a : Nat) : BitVec 10 := SMap.get (fun _ => 0) c.mem.banks a
def Chip.setCell (c : Chip) (a : Nat) (v : BitVec 10) : Chip :=
  { c with mem := { c.mem with banks := SMap.set (fun _ => 0) c.mem.banks a v } }

/-- The word at word-aligned address `a` as stored (R7). -/
def Chip.bankWord (c : Chip) (a : Nat) : Word :=
  (c.cell (a + 3)).setWidth 9 ++ (c.cell (a + 2)).setWidth 9 ++ (c.cell (a + 1)).setWidth 9 ++ (c.cell a).setWidth 9

/-- The nonets of the word, 0 to 3, whose check fails. -/
def Chip.badNonets (c : Chip) (a : Nat) : List Nat := (List.range 4).filter (fun i => nonetBad (c.cell (a + i)))

/-- Logs failing nonets of a word of bank `b` (R284): `src` is PLOG.SRC. -/
def Chip.bankParity (c : Chip) (b a src : Nat) (bad : List Nat) : Chip :=
  if bad.isEmpty then c
  else
    let word := (a - bankBase b) / 4
    let c := (c.count (pgBank b) 20 bad.length).logAll (pgBank b) 19 true
      (bad.map (fun n => withField (withField (withField 0 32 2 n) 30 2 src) 0 20 word))
    c.raise (pgBank b) 0

/-- A read of `nonets` of the word at `a`: the word as stored, whether a check failed, and the state with what is logged. -/
def Chip.bankRead (c : Chip) (b a src : Nat) (nonets : List Nat) : Word × Bool × Chip :=
  let bad := (c.badNonets a).filter (fun n => nonets.contains n)
  (c.bankWord a, !bad.isEmpty, c.bankParity b a src bad)

/-- Every reservation of the word at `a` ends (Table 6-11). -/
def Chip.endResv (c : Chip) (a : Nat) : Chip :=
  (List.range 4).foldl (fun c k => if (c.core k).resv = some a then c.dropResv k else c) c

/-- A write of the nonets `nonets` of the word at `a`, with fresh parity, inverted when the data is poisoned (R280, R299). -/
def Chip.bankWrite (c : Chip) (a : Nat) (v : Word) (nonets : List Nat) (inv : Bool) : Chip :=
  (nonets.foldl (fun c n => c.setCell (a + n) (nonetCell ((v >>> (9 * n)).setWidth 9) inv)) c).endResv a

def allNonets : List Nat := [0, 1, 2, 3]


/-- LDR by core k of the word at `a`: a core alone holds a reservation, and any LDR replaces the one it holds, by none when the word
fails its check (R181, R284, Table 6-11). -/
def Chip.reserve (c : Chip) (k a : Nat) (bad : Bool) : Chip :=
  if k < 4 then c.setCore k { c.core k with resv := if bad then none else some a } else c

/-- STC by core k at `a`: whether it succeeds, and the state after it (R181). -/
def Chip.storeCond (c : Chip) (k a : Nat) (v : Word) : Bool × Chip :=
  let x := c.core k
  let spend (c : Chip) : Chip := (c.setCore k { c.core k with failStc := false }).dropResv k
  if k < 4 ∧ x.resv = some a ∧ x.failStc = false then (true, spend (c.bankWrite a v allNonets false))
  else (false, if k < 4 then spend c else c)

def BankAcc.word : BankAcc → Nat
  | .read w => w
  | .write w _ _ => w
  | .aadd w _ => w
  | .aswap w _ => w
  | .post w _ _ => w
  | .ldr w _ => w
  | .stc w _ _ => w

def BankAcc.isRead : BankAcc → Bool
  | .read _ => true
  | .ldr _ _ => true
  | _ => false

/-- The whole effect of one access: what it returns, if it returns a word, and the state. -/
def bankDo (b src : Nat) (a : BankAcc) (c : Chip) : Option (Word × Bool) × Chip :=
  let ad := bankBase b + 4 * a.word
  match a with
  | .read _ =>
    let r := c.bankRead b ad src allNonets
    (some (r.1, r.2.1), r.2.2)
  | .write _ v ns => (none, c.bankWrite ad v ns false)
  | .aadd _ v =>
    let r := c.bankRead b ad src allNonets
    (some (r.1, r.2.1), r.2.2.bankWrite ad (r.1 + v) allNonets false)
  | .aswap _ v =>
    let r := c.bankRead b ad src allNonets
    (some (r.1, r.2.1), r.2.2.bankWrite ad v allNonets false)
  | .post _ v ns => (none, c.bankWrite ad v ns false)
  | .ldr _ k =>
    let r := c.bankRead b ad src allNonets
    (some (r.1, r.2.1), r.2.2.reserve k ad r.2.1)
  | .stc _ k v =>
    let r := c.storeCond k ad v
    (some (ofBool r.1, false), r.2)

def portRes (b : Nat) (owner : Bool) (r : Option (Word × Bool)) : List PortRes :=
  match r with
  | some x => [.bank b owner x.1 x.2]
  | none => []

/-- One bank cycle of both ports: reads see the word as it stood before; the ring port goes before the owner (Table 9-4). -/
def bankCycle (b : Nat) (owner ring : Option BankAcc) (c : Chip) : Chip :=
  let go (own : Bool) (a : Option BankAcc) (reads : Bool) (x : List PortRes × Chip) : List PortRes × Chip :=
    match a with
    | some a =>
      if a.isRead == reads then
        let r := bankDo b (if own then 0 else 1) a x.2
        (x.1 ++ portRes b own r.1, r.2)
      else x
    | none => x
  let x := go true owner false (go false ring false (go false ring true (go true owner true ([], c))))
  { x.2 with mem := { x.2.mem with ports := x.2.mem.ports ++ x.1 } }

/-- The bank clears every word with correct parity (R288); the reservations of its words end (Table 6-11). -/
def Chip.bankClear (c : Chip) (b : Nat) : Chip :=
  let inB (a : Nat) : Bool := decide (bankBase b ≤ a) && decide (a < bankBase b + 4 * bankWords b)
  let c := { c with mem := { c.mem with banks := SMap.drop inB c.mem.banks } }
  (List.range 4).foldl (fun c k => match (c.core k).resv with
    | some a => if inB a then c.dropResv k else c
    | none => c) c

/-! ### HBM (R267 to R278) -/

/-- Octets of one die (R267). -/
def dieSize : Nat := if Config.isE192 then 0xC00000000 else 0x800000000

def hbmKey (die o : Nat) : Nat := die * 2 ^ 36 + o
def Chip.hbmCell (c : Chip) (die o : Nat) : BitVec 9 := SMap.get (fun _ => 0) c.mem.hbm (hbmKey die o)
def Chip.setHbmCell (c : Chip) (die o : Nat) (v : BitVec 9) : Chip :=
  { c with mem := { c.mem with hbm := SMap.set (fun _ => 0) c.mem.hbm (hbmKey die o) v } }

/-- The stack of a die-local offset (Table 9-1). -/
def stackOf (o : Nat) : Nat := o / 256 % 2

/-- The die's HBM serves requests: both stacks trained, none in self-refresh (R276, R277). -/
def hbmUp (c : Chip) (die : Nat) : Bool :=
  [0, 1].all (fun m => c.flag (pgHbmc die m) 3 0 && !c.flag (pgHbmc die m) 3 2)

/-- One log event of a controller, with PLOGADDR captured beside PLOG (R278). -/
def Chip.hbmLog (c : Chip) (die o src req : Nat) : Chip :=
  let p := pgHbmc die (stackOf o)
  let c := if c.flag p 16 35 then c else c.setReg p 17 (BitVec.ofNat 36 o)
  c.log p 16 true (withField (withField 0 32 2 src) 28 4 req)


/-- A read of `n` octets from `o`: octets with a failure mark in bit 8, and what the controller logs (R272, R274). -/
def Chip.hbmRead (c : Chip) (die o n src req : Nat) (sev : List Sev) : List (BitVec 9) × Chip :=
  let hit (a : Nat) : Bool := sev.any (fun x => x.uncorrected && decide (x.burst = a / 32))
  let mark (a : Nat) : BitVec 9 :=
    BitVec.ofBool (octetBad (c.hbmCell die a) || hit a) ++ (c.hbmCell die a).setWidth 8
  let addrs := (List.range n).map (fun i => o + i)
  let c := sev.foldl (fun c x =>
    let p := pgHbmc die (stackOf (32 * x.burst))
    if x.uncorrected then (c.satAdd p 19 18 18 1).raise p 1 else c.satAdd p 19 0 18 1) c
  let c' := (addrs.filter (fun a => (mark a).getLsbD 8)).foldl (fun c a =>
    let p := pgHbmc die (stackOf a)
    ((c.count p 18 1).hbmLog die a (if hit a then 3 else src) req).raise p 0) c
  (addrs.map mark, c')

/-- A write of octets from `o`; bit 8 marks a poisoned octet, stored with inverted parity and logged (R271, R273). -/
def Chip.hbmWrite (c : Chip) (die o req : Nat) (data : List (BitVec 9)) : Chip :=
  (data.zipIdx).foldl (fun c x =>
    let a := o + x.2
    let bad := x.1.getLsbD 8
    let c := c.setHbmCell die a (octetCell (x.1.setWidth 8) bad)
    if bad then c.hbmLog die a 2 req else c) c

end Sys2Proof.Machine
end

