-- ==== Sys2Proof/Machine/Planes.lean ====
section
/-!
DEFINITION. Lambs, plane memory and one beat: geometry, parity, merges, the beat word, sampling.
Spec: R21 to R25, R65 to R93.
-/
namespace Sys2Proof.Machine

/-! ### Places -/

/-- Physical fold index of (die, physical column, fold row). -/
def foldIx (die col row : Nat) : Nat := (die * 10 + col) * 24 + row
def foldDie (f : Nat) : Nat := f / 240
def foldCol (f : Nat) : Nat := f % 240 / 24
def foldRow (f : Nat) : Nat := f % 24
def foldPage (f : Nat) : Nat := pgFold (foldDie f) (foldCol f) (foldRow f)
def rowKey (f i : Nat) : Nat := f * 36 + i
def planeKey (f plane i : Nat) : Nat := (f * 4608 + plane) * 36 + i

/-- First scratch plane, first mask-stack plane, planes in all (R77, R126). -/
def userPlanes : Nat := 4464
def maskPlane (d : Nat) : Nat := 4576 + 2 * d
def allPlanes : Nat := 4608
def isWorking (plane : Nat) : Bool := decide (4464 ≤ plane) && decide (plane < 4576)

/-- The fold and local row that hold flock row `r` of a fold column (R22). -/
def colFold (dc : Nat × Nat) (r : Nat) : Nat := foldIx dc.1 dc.2 (r / 36)

/-! ### Row-slices (R78, R79) -/

def sliceParity (w : Word) : BitVec 4 :=
  BitVec.ofBool (parityOf 9 (fieldOf w 27 9)) ++ BitVec.ofBool (parityOf 9 (fieldOf w 18 9)) ++
  BitVec.ofBool (parityOf 9 (fieldOf w 9 9)) ++ BitVec.ofBool (parityOf 9 (fieldOf w 0 9))
/-- A stored row-slice; `inv` names the nonets stored with inverted parity. -/
def mkSlice (w : Word) (inv : BitVec 4) : BitVec 40 := (sliceParity w ^^^ inv) ++ w
def sliceData (x : BitVec 40) : Word := x.setWidth 36
/-- The nonets whose check fails, as a mask. -/
def sliceBad (x : BitVec 40) : BitVec 4 := (x >>> 36).setWidth 4 ^^^ sliceParity (sliceData x)
def badList (b : BitVec 4) : List Nat := (List.range 4).filter (fun n => b.getLsbD n)

/-- The row-slice of local row `i` of a fold at a plane address. A working plane that nothing has written since the last
instruction boundary is undefined (R224). -/
def Chip.slice (c : Chip) (f plane i : Nat) : BitVec 40 :=
  if isWorking plane then
    match SMap.get (fun _ => none) c.arr.work (planeKey f plane i) with
    | some x => x
    | none => mkSlice (Config.workSlice (SMap.get (fun _ => 0) c.arr.epoch (foldDie f)) (planeKey f plane i)) 0
  else SMap.get (fun _ => 0) c.arr.planes (planeKey f plane i)

def Chip.setSlice (c : Chip) (f plane i : Nat) (v : BitVec 40) : Chip :=
  if isWorking plane then
    { c with arr := { c.arr with work := SMap.set (fun _ => none) c.arr.work (planeKey f plane i) (some v) } }
  else { c with arr := { c.arr with planes := SMap.set (fun _ => 0) c.arr.planes (planeKey f plane i) v } }

/-- The working planes of the folds of a die become undefined (R224). -/
def Chip.endWork (c : Chip) (die : Nat) : Chip :=
  { c with arr := { c.arr with
      work := SMap.drop (fun k => foldDie (k / (4608 * 36)) == die) c.arr.work
      epoch := SMap.set (fun _ => 0) c.arr.epoch die (SMap.get (fun _ => 0) c.arr.epoch die + 1) } }

def Chip.lamb (c : Chip) (f i : Nat) : LambRow := SMap.get (fun _ => LambRow.formed) c.arr.lambs (rowKey f i)
def Chip.setLamb (c : Chip) (f i : Nat) (v : LambRow) : Chip :=
  { c with arr := { c.arr with lambs := SMap.set (fun _ => LambRow.formed) c.arr.lambs (rowKey f i) v } }

/-! ### Writes with masks and merges (R71, R82, R93) -/

/-- The nine enable bits of nonet `n` of a mask. -/
def enNonet (m : Word) (n : Nat) : Nat := fieldOf m (9 * n) 9
/-- Nonets with at least one enabled lamb, and those with some but not all. -/
def enAny (m : Word) : BitVec 4 := (List.range 4).foldl (fun b n => if enNonet m n ≠ 0 then b ||| (1#4 <<< n) else b) 0
def enPart (m : Word) : BitVec 4 :=
  (List.range 4).foldl (fun b n => if enNonet m n ≠ 0 ∧ enNonet m n ≠ 511 then b ||| (1#4 <<< n) else b) 0

/-- The row-slice after a write of `v` under `mask`, and the nonets whose merge read failed (R82). A nonet that is not
written keeps its stored parity; a failed merge, or an armed injection, stores inverted parity. -/
def mergeSlice (old : BitVec 40) (v mask : Word) (inject : Bool) : BitVec 40 × BitVec 4 :=
  let new := (sliceData old &&& ~~~mask) ||| (v &&& mask)
  let fail := sliceBad old &&& enPart mask
  let keep := sliceBad old &&& ~~~(enAny mask)
  let inj := if inject then enAny mask else 0
  (mkSlice new (keep ||| fail ||| inj), fail)

/-- One failed nonet check: source code of PERRLOG.SRC, row, nonet, plane. -/
structure PErr where
  src : Nat
  row : Nat
  nonet : Nat
  plane : Nat
deriving DecidableEq, Repr

def PErr.word (e : PErr) : Word :=
  withField (withField (withField (withField 0 32 2 e.src) 26 6 e.row) 24 2 e.nonet) 0 13 e.plane

/-- Logs failed checks of one fold: counted, captured in the order given, PPAR raised (R81, R92). -/
def foldErrors (f : Nat) (errs : List PErr) (c : Chip) : Chip :=
  if errs.isEmpty then c
  else
    let p := foldPage f
    ((c.count p 18 errs.length).logAll p 17 true (errs.map PErr.word)).raise p 0

/-- The array's write of one plane of one fold: data and enables by local row, with the injection of R93 when armed.
The failed merge reads are returned. -/
def writePlane (f plane : Nat) (rows : List (Nat × Word × Word)) (c : Chip) : List PErr × Chip :=
  let rows := rows.filter (fun x => x.2.2 != 0)
  if rows.isEmpty then ([], c)
  else
    let inj := c.flag (foldPage f) 2 0
    let r := rows.foldl (fun (x : List PErr × Chip) row =>
      let m := mergeSlice (x.2.slice f plane row.1) row.2.1 row.2.2 inj
      (x.1 ++ (badList m.2).map (fun n => ⟨2, row.1, n, plane⟩), x.2.setSlice f plane row.1 m.1)) ([], c)
    (r.1, if inj then r.2.setFlag (foldPage f) 2 0 false else r.2)

/-- The failed checks of a read of one plane of one fold (R80). -/
def readErrs (c : Chip) (f plane src : Nat) : List PErr :=
  (List.range 36).flatMap (fun i => (badList (sliceBad (c.slice f plane i))).map (fun n => ⟨src, i, n, plane⟩))

/-! ### The beat word (Table 3-5, bits of Table 7-6) -/

abbrev BeatWord := BitVec 121

namespace BeatWord
def ra (b : BeatWord) : Nat := (b.extractLsb' 108 13).toNat
def rb (b : BeatWord) : Nat := (b.extractLsb' 95 13).toNat
def wa (b : BeatWord) : Nat := (b.extractLsb' 82 13).toNat
def psel (b : BeatWord) : Nat := (b.extractLsb' 78 4).toNat
def qsel (b : BeatWord) : Nat := (b.extractLsb' 74 4).toNat
def rsel (b : BeatWord) : Nat := (b.extractLsb' 70 4).toNat
def g (b : BeatWord) : BitVec 8 := b.extractLsb' 62 8
def k (b : BeatWord) : BitVec 8 := b.extractLsb' 54 8
def gdst (b : BeatWord) : Nat := (b.extractLsb' 51 3).toNat
def ken (b : BeatWord) : Bool := b.getLsbD 50
def all (b : BeatWord) : Bool := b.getLsbD 49
def gang (b : BeatWord) : Bool := b.getLsbD 48
def gcin (b : BeatWord) : Nat := (b.extractLsb' 46 2).toNat
def rowmode (b : BeatWord) : Nat := (b.extractLsb' 44 2).toNat
def rowpick (b : BeatWord) : Nat := (b.extractLsb' 38 6).toNat
def immcol (b : BeatWord) : Bool := b.getLsbD 37
def sample (b : BeatWord) : Bool := b.getLsbD 36
def imm (b : BeatWord) : Word := b.setWidth 36

/-- The beat word with the fields of Table 3-5. -/
def mk (ra rb wa : BitVec 13) (psel qsel rsel : BitVec 4) (g k : BitVec 8) (gdst : BitVec 3) (ken all gang : Bool)
    (gcin rowmode : BitVec 2) (rowpick : BitVec 6) (immcol sample : Bool) (imm : Word) : BeatWord :=
  ra ++ rb ++ wa ++ psel ++ qsel ++ rsel ++ g ++ k ++ gdst ++ BitVec.ofBool ken ++ BitVec.ofBool all ++
  BitVec.ofBool gang ++ gcin ++ rowmode ++ rowpick ++ BitVec.ofBool immcol ++ BitVec.ofBool sample ++ imm

/-- R80: the beat reads RDA (code 0) or RDB (code 1). -/
def reads (b : BeatWord) (code : Nat) : Bool :=
  b.psel == code || b.qsel == code || (!b.gang && b.rsel == code)
/-- R88: addresses and ROWPICK within range. -/
def legal (b : BeatWord) : Bool :=
  decide (b.ra < allPlanes) && decide (b.rb < allPlanes) && decide (b.wa < allPlanes) && decide (b.rowpick ≤ 35)
end BeatWord

/-! ### One beat in a lamb row (R67 to R76) -/

/-- A truth table applied to three operand rows: index 4P + 2Q + R (R69). -/
def lut (t : BitVec 8) (p q r : Word) : Word :=
  (List.range 8).foldl (fun acc i =>
    if t.getLsbD i then
      acc ||| ((if i.testBit 2 then p else ~~~p) &&& (if i.testBit 1 then q else ~~~q) &&& (if i.testBit 0 then r else ~~~r))
    else acc) 0

/-- The R operand of a gang beat: the carry chain through the row (R75, R76). -/
def chainIn (k : BitVec 8) (p q : Word) (c0 : Bool) : Word :=
  ((List.range 36).foldl (fun (x : Word × Bool) j =>
    let i := 4 * (bitAt p j).toNat + 2 * (bitAt q j).toNat + x.2.toNat
    (if x.2 then x.1 ||| BitVec.ofNat 36 (2 ^ j) else x.1, k.getLsbD i)) (0, c0)).1

/-- The flock columns with their fold-column numbers, and the row data of the flock. -/
abbrev Cols := List (Nat × Nat)

/-- The lamb row at flock fold column `p` and flock row `r`, both taken modulo the flock (R24). -/
def Chip.flockRow (c : Chip) (cols : Cols) (p r : Nat) : LambRow :=
  let dc := cols.getD (p % cols.length) (0, 0)
  c.lamb (colFold dc (r % 864)) (r % 36)

/-- The fold-row bus (Table 3-4). -/
def rowBus (b : BeatWord) (x : LambRow) : Bool :=
  let act := if b.all then x.x else x.x &&& x.m
  match b.rowmode with
  | 0 => false
  | 1 => bitAt x.x b.rowpick
  | 2 => act != 0
  | _ => parityOf 36 act.toNat

def fill (b : Bool) : Word := if b then BitVec.allOnes 36 else 0

/-- The value of a source code for the 36 lambs of a row (Table 3-2). -/
def rowSrc (c : Chip) (cols : Cols) (b : BeatWord) (p r code : Nat) : Word :=
  let w := cols.length
  let me := c.flockRow cols p r
  let f := colFold (cols.getD p (0, 0)) r
  match code with
  | 0 => sliceData (c.slice f b.ra (r % 36))
  | 1 => sliceData (c.slice f b.rb (r % 36))
  | 2 => me.c
  | 3 => me.f
  | 4 => me.x
  | 5 => me.t
  | 6 => (c.flockRow cols p (r + 863)).x
  | 7 => (me.x >>> 1) ||| ((c.flockRow cols (p + 1) r).x <<< 35)
  | 8 => (me.x <<< 1) ||| ((c.flockRow cols (p + w - 1) r).x >>> 35)
  | 9 => (c.flockRow cols p (r + 1)).x
  | 10 => (c.flockRow cols p (r + 864 - 36)).x
  | 11 => (c.flockRow cols (p + 1) r).x
  | 12 => (c.flockRow cols (p + w - 1) r).x
  | 13 => (c.flockRow cols p (r + 36)).x
  | 14 => fill (rowBus b me)
  | _ => if b.immcol then b.imm else fill (bitAt b.imm 0)

/-- The G and K outputs of a row. -/
def rowOut (c : Chip) (cols : Cols) (b : BeatWord) (p r : Nat) : Word × Word :=
  let me := c.flockRow cols p r
  let pv := rowSrc c cols b p r b.psel
  let qv := rowSrc c cols b p r b.qsel
  let c0 := match b.gcin with
    | 0 => false
    | 1 => true
    | 2 => bitAt me.c 35
    | _ => bitAt me.c 0
  let rv := if b.gang then chainIn b.k pv qv c0 else rowSrc c cols b p r b.rsel
  (lut b.g pv qv rv, lut b.k pv qv rv)

/-- A register row after a masked write. -/
def wr (old new en : Word) : Word := (old &&& ~~~en) ||| (new &&& en)

/-- The registers of a row after the beat (R70, R71). -/
def rowRegs (me : LambRow) (b : BeatWord) (g k : Word) : LambRow :=
  let en := if b.all then BitVec.allOnes 36 else me.m
  { c := if b.ken then wr me.c k en else me.c
    f := if b.gdst = 3 ∨ b.gdst = 7 then wr me.f g en else me.f
    m := if b.gdst = 5 then wr me.m g en else me.m
    x := if b.gdst = 2 ∨ b.gdst = 6 then wr me.x g en else me.x
    t := if b.gdst = 4 then wr me.t g en else me.t }

def BeatWord.writesPlane (b : BeatWord) : Bool := b.gdst == 1 || b.gdst == 6 || b.gdst == 7

/-- One beat of the folds of a flock: each die `word d`; reads see the state before the beat (R67). The folds with failed
checks are returned (R80, R81). -/
def beat (cols : Cols) (word : Nat → BeatWord) (c0 : Chip) : List Nat × Chip :=
  (cols.zipIdx).foldl (fun acc pc =>
    (List.range 24).foldl (fun (acc : List Nat × Chip) y =>
      let b := word pc.1.1
      let f := foldIx pc.1.1 pc.1.2 y
      let outs := (List.range 36).map (fun i => (i, rowOut c0 cols b pc.2 (36 * y + i)))
      let rd := (if b.reads 0 then readErrs c0 f b.ra 0 else []) ++ (if b.reads 1 then readErrs c0 f b.rb 1 else [])
      let w := if b.writesPlane then
          writePlane f b.wa (outs.map (fun o =>
            (o.1, o.2.1, if b.all then BitVec.allOnes 36 else (c0.lamb f o.1).m))) acc.2
        else ([], acc.2)
      let c := outs.foldl (fun c o => c.setLamb f o.1 (rowRegs (c0.lamb f o.1) b o.2.1 o.2.2)) w.2
      let errs := rd ++ w.1
      (if errs.isEmpty then acc.1 else acc.1 ++ [f], foldErrors f errs c)) acc) ([], c0)

/-! ### Sampling (R40, R89, R130, R131) -/

/-- The contributing lambs of a row. -/
def contrib (all : Bool) (x : LambRow) : Word := if all then x.f else x.f &&& x.m

def popcount (w : Word) : Nat := (List.range 36).foldl (fun n i => n + (bitAt w i).toNat) 0
/-- Index of the lowest bit that is 1. -/
def lowest (w : Word) : Option Nat := (List.range 36).find? (fun i => bitAt w i)

/-- Number of contributing lambs of the flock. -/
def sampleCount (cols : Cols) (all : Bool) (c : Chip) : Nat :=
  (List.range 864).foldl (fun n r => (List.range cols.length).foldl (fun n p =>
    n + popcount (contrib all (c.flockRow cols p r))) n) 0

/-- The lowest contributing flock index, or all ones (R23, R131). -/
def sampleFirst (cols : Cols) (all : Bool) (c : Chip) : Word :=
  let w := cols.length
  let places := (List.range 864).flatMap (fun r => (List.range w).map (fun p => (r, p)))
  match places.findSome? (fun x => (lowest (contrib all (c.flockRow cols x.2 x.1))).map
      (fun j => x.1 * (36 * w) + 36 * x.2 + j)) with
  | some i => BitVec.ofNat 36 i
  | none => BitVec.allOnes 36

/-- A reduction of the flock (R40). -/
def sample (cols : Cols) (all : Bool) (rupd : BitVec 2) (micro : Bool) (c : Chip) : Red :=
  let n := sampleCount cols all c
  { rupd := rupd, bell := decide (n ≠ 0), count := n, first := sampleFirst cols all c, micro := micro }

/-! ### The plane port (R84 to R86) -/

/-- A port write replaces the row-slice; `inv` marks the nonets stored with inverted parity (R261). -/
def portWrite (f plane i : Nat) (w : Word) (inv : BitVec 4) (c : Chip) : Chip := c.setSlice f plane i (mkSlice w inv)

/-- A port read: the slice, its error mark, and what the fold logs with source PORT (R86). -/
def portRead (f plane i : Nat) (c : Chip) : Word × Bool × Chip :=
  let x := c.slice f plane i
  let errs := (badList (sliceBad x)).map (fun n => (⟨3, i, n, plane⟩ : PErr))
  (sliceData x, !errs.isEmpty, foldErrors f errs c)

/-! ### Formation and clearing (R66, R83) -/

/-- The folds of the logical columns of a die. -/
def activeFolds (c : Chip) (die : Nat) : List Nat :=
  (c.dieCols die).flatMap (fun x => (List.range 24).map (fun y => foldIx die x y))

/-- Every lamb of the named folds takes C = F = X = T = 0 and M = 1 (R66). -/
def formLambs (fs : List Nat) (c : Chip) : Chip :=
  { c with arr := { c.arr with lambs := SMap.drop (fun k => fs.contains (k / 36)) c.arr.lambs } }

/-- Zero with correct parity in all 4,608 planes of the named folds (R83). -/
def clearPlanes (fs : List Nat) (c : Chip) : Chip :=
  let p (k : Nat) : Bool := fs.contains (k / (4608 * 36))
  { c with arr := { c.arr with planes := SMap.drop p c.arr.planes, work := SMap.drop p c.arr.work } }

end Sys2Proof.Machine
end

