-- ==== Sys2Proof/Machine/Stops.lean ====
section
/-!
DEFINITION. The stops of the drove rings: what stands at each, which pages each serves, their modes, and the ports of the scratch banks
behind them (R279, R282, R287 to R289, R291 to R293, R309 to R313).
-/
namespace Sys2Proof.Machine

/-! ### Table 10-1 -/

/-- The stops of an initiator of Table 10-5, from the lowest-numbered ring up (Table 10-1). -/
def initStops (i : Nat) : List (Nat × Nat) :=
  if i < 4 then [(i / 2, 2 + 3 * (i % 2))]
  else if i = 4 then [(0, 1), (2, 1)]
  else if i = 5 then [(1, 1), (2, 5)]
  else if i < 10 then [(1, 9), (2, 2)]
  else if i < 14 then [(1, 10), (2, 6)]
  else if i < 18 then [(1, 11), (2, 3)]
  else if i < 22 then [(1, 13), (2, 7)]
  else if i = 22 then [(0, 14), (2, 9)]
  else if i = 23 then [(0, 11)]
  else if i < 28 then [(0, 4 * (i - 24))]
  else [(0, 9)]

/-- The stop of an initiator on its lowest-numbered ring. -/
def initStop (i : Nat) : Nat × Nat := (initStops i).headD (0, 9)
/-- The stop of an initiator on ring r, if it has one. -/
def stopOn (i r : Nat) : Option (Nat × Nat) := (initStops i).find? (fun s => s.1 == r)

/-- The stop that serves a page; none for the pages of the fold dies, which stand behind gateways (R292). -/
def servingStop (p : Nat) : Option (Nat × Nat) :=
  if p < 8 then (if p = 3 then some (0, 10) else some (0, 9))
  else if p < 20 then (let k := p % 4; some (k / 2, 2 + 3 * (k % 2)))
  else if 24 ≤ p ∧ p < 32 then some (1, if p < 28 then 9 else 10)
  else if 32 ≤ p ∧ p < 40 then some (1, if p < 36 then 11 else 13)
  else if p = 41 then some (1, 1)
  else if 40 ≤ p ∧ p < 46 then some (0, 1)
  else if p = 55 ∨ p = 58 then some (0, 11)
  else if 48 ≤ p ∧ p < 57 then
    some (match p - 48 with | 0 => (0, 3) | 1 => (0, 6) | 2 => (1, 3) | 3 => (1, 6) | 4 => (0, 7) | 5 => (1, 7) | 6 => (1, 14) | _ => (2, 10))
  else if p = 57 then some (0, 13)
  else if p = 59 then some (0, 14)
  else if 1024 ≤ p ∧ p < 3072 then none
  else some (0, 9)

/-- LOC.KIND (Table 10-7): 1 a gateway, 2 XR, 3 a relay, 0 a block. -/
def stopKind (s : Nat × Nat) : Nat :=
  if s.2 % 4 = 0 ∧ s.2 < 15 then 1 else if s.2 = 15 then 2 else if s.1 = 2 ∧ 11 ≤ s.2 then 3 else 0

/-! ### Blocks that close (R313, R380, R424) -/

def tileOff (c : Chip) (t : Nat) : Bool := c.flag pgHub 24 (8 + t)
def colOff (c : Chip) (e : Nat) : Bool := c.flag pgHub 24 e
/-- The PE_BIF strap as sampled (Table 13-7). -/
def bifurcated (c : Chip) : Bool := c.flag (pgPcie 0) 3 3

/-- The scratch bank at a stop (Table 10-1). -/
def stopBank (s : Nat × Nat) : Option Nat :=
  [0, 1, 2, 3, 4, 5, 6, 8].find? (fun b => servingStop (pgBank b) == some s)

/-- The block at a stop, as STAT.MODE names it: 3 CLOSING, 4 OFF, 0 otherwise. A tile or collie stop is off with its four domains
(DEDUCED, log entry 11: they close one by one). -/
def blockMode (c : Chip) (s : Nat × Nat) : Nat :=
  let four (on : Nat → Bool) (n : Nat) : Nat := if (List.range 4).all (fun i => on (4 * n + i)) then 4 else 0
  match stopBank s with
  | some b => (match c.fld (pgBank b) 3 3 2 with | 1 => 3 | 2 => 4 | _ => 0)
  | none =>
    if s = (1, 1) ∨ s = (2, 5) then (if bifurcated c then 0 else 4)
    else if s = (1, 9) ∨ s = (2, 2) then four (tileOff c) 0
    else if s = (1, 10) ∨ s = (2, 6) then four (tileOff c) 1
    else if s = (1, 11) ∨ s = (2, 3) then four (colOff c) 0
    else if s = (1, 13) ∨ s = (2, 7) then four (colOff c) 1
    else 0

/-- STOP.STAT.MODE: 0 NORMAL, 1 HOLDING, 2 PASS, 3 CLOSING, 4 OFF. CLOSING and OFF go before HOLDING and PASS (R313). -/
def stopMode (c : Chip) (s : Nat × Nat) : Nat :=
  let b := blockMode c s
  if b = 0 then c.fld (pgStop s.1 s.2) 3 0 3 else b
/-- The stop is in HOLDING or PASS: a packet for it goes round (R310, R312). -/
def circulates (c : Chip) (s : Nat × Nat) : Bool := stopMode c s == 1 || stopMode c s == 2

/-- A posted packet dropped at a stop (R312, R313). -/
def stopDrop (s : Nat × Nat) (c : Chip) : Chip := (c.count (pgStop s.1 s.2) 18 1).raise (pgStop s.1 s.2) 0
/-- A packet of another kind lost at a stop. -/
def stopLost (s : Nat × Nat) (c : Chip) : Chip := (c.count (pgStop s.1 s.2) 19 1).raise (pgStop s.1 s.2) 1
/-- Bank b drops a posted write (R287). -/
def bankDropw (b : Nat) (c : Chip) : Chip := (c.count (pgBank b) 21 1).raise (pgBank b) 3

/-- The header check of R298 at stop s: the packet goes on, or is discarded. `hdr` is what the check finds: 0 good, 1 a single error. -/
def headerOk (s : Nat × Nat) (hdr : Nat) (c : Chip) : Bool × Chip :=
  if hdr = 0 then (true, c)
  else if hdr = 1 then (true, c.satAdd (pgStop s.1 s.2) 20 0 18 1)
  else (false, (c.satAdd (pgStop s.1 s.2) 20 18 18 1).raise (pgDrove s.1) 1)

/-- A packet joins those that are under way, behind all others. -/
def Chip.fly (c : Chip) (f : Fly) : Chip := { c with ring := { c.ring with flight := c.ring.flight ++ [f] } }

/-- A block gives up a transfer: the answer that it waited for is used by nobody (R205, R388, R536). -/
def Chip.abandon (c : Chip) (x : Xact) : Chip :=
  match x.wait with
  | none => c
  | some w => { c with ring := { c.ring with
      owed := c.ring.owed.map (fun e => if e.stop = w.1 ∧ e.tag = w.2 then { e with block := false } else e),
      answers := c.ring.answers.filter (fun a => !(a.2.dst == w.1 && a.2.tag == w.2)) } }

/-! ### The ports of a bank (R282, R287 to R289) -/

/-- The accesses that a port of bank b may make: the secure bank has no ring port, and no atomics (R62, R283). -/
def portAllows (b : Nat) (owner : Bool) (a : BankAcc) : Bool :=
  b != 7 || (owner && (match a with | .read _ | .write _ _ _ | .post _ _ _ => true | _ => false))

/-- An access to a bank that is closing or off: GONE, or a posted write dropped (R287, R313). -/
def bankRefuse (b : Nat) (owner : Bool) (a : Option BankAcc) (c : Chip) : Chip :=
  match a with
  | none => c
  | some (.post _ _ _) => if owner then bankDropw b c else stopDrop ((servingStop (pgBank b)).getD (0, 9)) (bankDropw b c)
  | some _ => { c with mem := { c.mem with ports := c.mem.ports ++ [.bankGone b owner] } }

/-- BANK_ACCESS (R282): the accesses of one bank cycle are performed, held while the bank clears or is wiped, or answered with GONE. -/
def bankAccess (b : Nat) (owner ring : Option BankAcc) (c : Chip) : Chip :=
  let owner := owner.filter (portAllows b true)
  let ring := ring.filter (portAllows b false)
  if !bankOn c b then bankRefuse b true owner (bankRefuse b false ring c)
  else if bankClearing c b || bankWiping c b then { c with mem := { c.mem with held := c.mem.held ++ [(b, owner, ring)] } }
  else bankCycle b owner ring c

/-- The accesses that bank b held proceed in their order, once no clear and no wipe runs (R281, R288, R289). -/
def bankRelease (b : Nat) (c : Chip) : Chip :=
  if bankClearing c b || bankWiping c b then c else
  let mine := c.mem.held.filter (fun x => x.1 == b)
  let c := { c with mem := { c.mem with held := c.mem.held.filter (fun x => x.1 != b) } }
  mine.foldl (fun c x => bankCycle b x.2.1 x.2.2 c) c

end Sys2Proof.Machine
end

