-- ==== Sys2Proof/Machine/Ctu.lean ====
section
/-!
DEFINITION. Corner-turn units: descriptors, checks, layouts, channel states, completion, aborts (R239 to R265).
-/
namespace Sys2Proof.Machine

def chanKey (die p ch : Nat) : Nat := (die * 9 + p) * 16 + ch
def Chip.chan (c : Chip) (die p ch : Nat) : Chan := SMap.get (fun _ => Chan.idle) c.ctu.chans (chanKey die p ch)
def Chip.setChan (c : Chip) (die p ch : Nat) (x : Chan) : Chip :=
  { c with ctu := { c.ctu with chans := SMap.set (fun _ => Chan.idle) c.ctu.chans (chanKey die p ch) x } }

/-! ### Descriptor fields (Table 8-4) -/
namespace Chan
def word (x : Chan) (i : Nat) : Word := x.words.getD i 0
def haddr (x : Chan) : Nat := (x.word 0).toNat
def stride (x : Chan) : Nat := (x.word 1).toNat
def layout (x : Chan) : Nat := fieldOf (x.word 2) 33 3
def pack (x : Chan) : Nat := fieldOf (x.word 2) 31 2
def outbound (x : Chan) : Bool := bitAt (x.word 2) 30
def chen (x : Chan) : Bool := bitAt (x.word 2) 29
def chain (x : Chan) : Nat := fieldOf (x.word 2) 25 4
def row0 (x : Chan) : Nat := fieldOf (x.word 2) 10 10
def nr (x : Chan) : Nat := fieldOf (x.word 2) 0 10
def pl (x : Chan) : Nat := fieldOf (x.word 3) 23 13
def cnt (x : Chan) : Nat := fieldOf (x.word 3) 10 13
def sw (x : Chan) : Nat := fieldOf (x.word 4) 23 13

/-- Stream bits and octets of one piece, and the number of pieces (Table 8-3). -/
def pieceBits (x : Chan) : Nat := match x.layout with
  | 0 => 36 * x.sw
  | 1 => 36 * x.cnt
  | _ => 36 * x.nr
def pieceOctets (x : Chan) : Nat := if x.pack = 0 then x.pieceBits / 9 else (x.pieceBits + 7) / 8
def pieces (x : Chan) : Nat := if x.layout = 2 then x.cnt else x.nr
/-- Row-slices of one piece. -/
def slicesPer (x : Chan) : Nat := if x.layout = 2 then x.nr else x.cnt
def empty (x : Chan) : Bool := x.nr == 0 || x.cnt == 0 || (x.layout == 0 && x.sw == 0)
def total (x : Chan) : Nat := if x.empty then 0 else x.pieces * x.slicesPer

/-- Plane and row of row-slice `i` in the order in which this model moves them (R254 leaves the order open). -/
def place (x : Chan) (i : Nat) : Nat × Nat :=
  let q := i / x.slicesPer
  let j := i % x.slicesPer
  if x.layout = 2 then (x.pl + q, x.row0 + j) else (x.pl + j, x.row0 + q)

/-- The stream bit that belongs to local column `j` of slice number `s` of a piece (R244 to R246). -/
def streamBit (x : Chan) (s j : Nat) : Nat := if x.layout = 0 then j * x.sw + s else 36 * s + j

/-- Octet index and bit of a stream bit, if an octet carries it (Table 8-1). -/
def octetOf (x : Chan) (sb : Nat) : Option (Nat × Nat) :=
  if x.pack = 0 then (if sb % 9 = 8 then none else some (sb / 9, sb % 9)) else some (sb / 8, sb % 8)

/-- The slice number of a piece that a stream bit reaches, if it reaches a local column of one. -/
def sliceOf (x : Chan) (sb : Nat) : Option Nat :=
  let s := if x.layout = 0 then sb % x.sw else sb / 36
  if decide (s < x.slicesPer) && (x.layout != 0 || decide (sb < 36 * x.sw)) then some s else none
/-- Octet `o` of a piece delivers no bit to a slice before number `s`, and one to it. -/
def firstAt (x : Chan) (s o : Nat) : Bool :=
  let reach := (List.range 8).filterMap (fun m => x.sliceOf ((if x.pack = 0 then 9 else 8) * o + m))
  reach.contains s && reach.all (fun r => decide (s ≤ r))
end Chan

/-- The first failing check of Table 8-5 after the entry was read (codes 0o03 to 0o11). -/
def chanCheck (x : Chan) : Option Nat :=
  let serial := x.layout == 0
  let rsvd := decide (3 ≤ x.layout) || x.pack == 3 || fieldOf (x.word 2) 20 5 != 0 || fieldOf (x.word 3) 0 10 != 0 ||
    fieldOf (x.word 4) 0 23 != 0 || x.word 5 != 0 || x.word 6 != 0 || (!serial && x.sw != 0) || (!x.chen && x.chain != 0)
  let combo := if x.layout = 2 then x.pack != 2 else x.pack == 2
  let last := x.haddr + (x.pieces - 1) * x.stride + x.pieceOctets - 1
  if rsvd then some 0o03
  else if combo then some 0o04
  else if decide (userPlanes ≤ x.pl) || (x.cnt != 0 && decide (userPlanes < x.pl + x.cnt)) then some 0o05
  else if decide (863 < x.row0) || (x.nr != 0 && decide (864 < x.row0 + x.nr)) then some 0o06
  else if serial && x.sw != 0 && decide (x.sw < x.cnt) then some 0o07
  else if decide (dieSize ≤ x.haddr) || (!x.empty && decide (dieSize ≤ last)) then some 0o10
  else if x.outbound && decide (1 < x.pieces) && decide (x.stride < x.pieceOctets) then some 0o11
  else none

/-! ### States -/

def ctuNoCol (c : Chip) (die p : Nat) : Bool := decide ((c.dieCols die).length ≤ p)
def slotsUsed (c : Chip) (die p : Nat) : Nat :=
  ((List.range 16).filter (fun ch => decide (2 ≤ (c.chan die p ch).st))).length

/-! ### Staging (R258, R259) -/

/-- Row-slices that the two staging buffers of a CTU hold: 128 for each of 24 folds, twice (R259). -/
def stagingSize : Nat := 2 * 128 * 24
/-- Row-slices of the channel that staging keeps room for: those of every piece that is not wholly moved (inbound) or written (outbound).
DESIGN CHOICE (log entry 14): a piece takes its room as a whole, from its first octet or port access. -/
def Chan.heldSlices (x : Chan) : Nat :=
  if x.st ≠ 4 ∧ x.st ≠ 5 ∨ x.empty = true then 0
  else if x.outbound then x.slicesPer * ((x.moved + x.slicesPer - 1) / x.slicesPer - x.fill / x.pieceOctets)
  else x.slicesPer * ((x.fill + x.pieceOctets - 1) / x.pieceOctets) - x.moved
/-- Staging has room for one more piece of `n` row-slices. -/
def stagingRoom (c : Chip) (die p n : Nat) : Bool :=
  decide (((List.range 16).map (fun ch => (c.chan die p ch).heldSlices)).foldl (fun a b => a + b) 0 + n ≤ stagingSize)

/-- The next HBM request of a piece that starts at `a` and is `n` octets long, from its octet `o`: up to 64 octets, aligned to 64 where the
piece allows (R258). -/
def chunkLen (a n o : Nat) : Nat := min (64 - (a + o) % 64) (n - o)
/-- The requests of a piece of `n` octets from `a`: offset and length. -/
def chunks (a n : Nat) : List (Nat × Nat) :=
  (List.range ((a % 64 + n + 63) / 64)).map (fun i =>
    let o := 64 * i - a % 64
    (o, chunkLen a n o))
/-- Writes queued by the CTU on the 64-octet blocks of a run come first (R270). -/
def queuedBlock (c : Chip) (die p a n : Nat) : Bool :=
  (List.range 16).any (fun ch => (c.chan die p ch).wq.any (fun w =>
    decide (w.1 / 64 ≤ (a + n - 1) / 64) && decide (a / 64 ≤ (w.1 + w.2.length - 1) / 64)))

/-- A flock is formed and no change of mode is leaving it (R251, R405). -/
def flockFormed (c : Chip) : Bool := c.fld pgFlock 16 20 2 != 0 && c.pwr.target.isNone
def clearingAny (c : Chip) (die : Nat) : Bool := (activeFolds c die).any (fun f => c.flag (foldPage f) 3 0)

/-- A channel starts: it waits in PENDING (R251, R252). -/
def chanStart (die p ch origin : Nat) (c : Chip) : Chip :=
  let c := c.setChan die p ch { Chan.idle with st := 1, order := c.ctu.starts, origin := origin }
  { c with ctu := { c.ctu with starts := c.ctu.starts + 1 } }

/-- A CHSTART write (R251): refused as a whole, or every channel named starts, in ascending order. -/
def chstart (die p : Nat) (v : Word) (c : Chip) : Chip :=
  let named := (List.range 16).filter (fun ch => bitAt v ch)
  if !flockFormed c || clearingAny c die || named.any (fun ch => (c.chan die p ch).st != 0)
  then c.refuse (pgCtu die p) 17 2
  else named.foldl (fun c ch => chanStart die p ch 0 c) c

/-- A CHABORT write (R257): a channel that has no code yet ends with ABORTED, one in DRAIN keeps its code, and neither chains. -/
def chabort (die p : Nat) (v : Word) (c : Chip) : Chip :=
  ((List.range 16).filter (fun ch => bitAt v ch)).foldl (fun c ch =>
    let x := c.chan die p ch
    if x.st = 0 then c
    else if x.st = 5 ∨ x.code.isSome = true then c.setChan die p ch { x with nochain := true }
    else if x.st = 4 then
      c.setChan die p ch { x with code := some 0o13, nochain := true, resv := false, st := if x.outbound then 5 else 4 }
    else (c.abandon x.xact).setChan die p ch { x with code := some 0o13, nochain := true, xact := Xact.none }) c

/-- SLOT_GRANT (R252): the earliest PENDING channel takes a free slot. -/
def slotGrant (die p ch : Nat) (c : Chip) : Chip :=
  let x := c.chan die p ch
  let first := (List.range 16).all (fun o =>
    let y := c.chan die p o
    o == ch || y.st != 1 || y.code.isSome || decide (x.order < y.order))
  if x.st = 1 ∧ x.code = none ∧ first = true ∧ slotsUsed c die p < 4 then c.setChan die p ch { x with st := 2 } else c

/-- Address of word `i` of entry `ch` (R248). -/
def entryAddr (c : Chip) (die p ch i : Nat) : Nat := (c.reg (pgCtu die p) 16).toNat + 32 * ch + 4 * i

/-- R253: the plane ranges and the row ranges of two channels both overlap. -/
def chansOverlap (x y : Chan) : Bool :=
  decide (x.pl < y.pl + y.cnt) && decide (y.pl < x.pl + x.cnt) &&
  decide (x.row0 < y.row0 + y.nr) && decide (y.row0 < x.row0 + x.nr)

/-- The reservations held on the planes of a die: (first plane, length) (R254). -/
def reservations (c : Chip) (die : Nat) : List (Nat × Nat) :=
  (List.range 9).flatMap (fun p => (List.range 16).filterMap (fun ch =>
    let x := c.chan die p ch
    if x.resv then some (x.pl, x.cnt) else none))

/-- Two plane ranges share a plane. -/
def rangesMeet (r s : Nat × Nat) : Bool :=
  r.2 != 0 && s.2 != 0 && decide (r.1 < s.1 + s.2) && decide (s.1 < r.1 + r.2)

/-- RESERVATION_PLACE (R253, R254): `busy` is the touch set of the instruction that runs on the die. An earlier channel whose entry is not
read yet may overlap, and the channel waits for it too. -/
def reservationPlace (die p ch : Nat) (busy : List (Nat × Nat)) (c : Chip) : Chip :=
  let x := c.chan die p ch
  let blocked := (List.range 16).any (fun o =>
    let y := c.chan die p o
    o != ch && decide (y.order < x.order) &&
      (((y.st == 1 || y.st == 2) && y.code.isNone) || (decide (3 ≤ y.st) && chansOverlap x y)))
  if x.st ≠ 3 ∨ x.code.isSome = true ∨ blocked = true ∨ busy.any (rangesMeet (x.pl, x.cnt)) = true then c
  else c.setChan die p ch { x with st := 4, resv := true }

/-- STAGING_FILL (R258, R261, R270): the next request of an inbound channel arrives from HBM, with the stacks' severity reports. It is made
only while staging has room for its piece, and waits for writes that the CTU has queued on its block. -/
def stagingFill (die p ch : Nat) (sev : List Sev) (c : Chip) : Chip :=
  let x := c.chan die p ch
  let rb := x.pieceOctets
  let q := x.fill / rb
  let o := x.fill % rb
  let a := x.haddr + q * x.stride
  let n := chunkLen a rb o
  if x.st ≠ 4 ∨ x.outbound = true ∨ x.code.isSome = true ∨ x.pieces ≤ q then c
  else if !hbmUp c die || queuedBlock c die p (a + o) n || (o == 0 && !stagingRoom c die p x.slicesPer) then c
  else
    let r := c.hbmRead die (a + o) n 0 p sev
    let st := (r.1.zipIdx).foldl (fun m d => SMap.set (fun _ => 0) m (x.fill + d.2) d.1) x.stage
    r.2.setChan die p ch { x with stage := st, fill := x.fill + n }

/-- The row-slice number `i` as staged, with the nonets that a failing octet reaches. -/
def stagedSlice (x : Chan) (i : Nat) : Word × BitVec 4 :=
  let base := (i / x.slicesPer) * x.pieceOctets
  (List.range 36).foldl (fun (acc : Word × BitVec 4) j =>
    match x.octetOf (x.streamBit (i % x.slicesPer) j) with
    | none => acc
    | some (o, m) =>
      let v := SMap.get (fun _ => 0) x.stage (base + o)
      (if v.getLsbD m then acc.1 ||| BitVec.ofNat 36 (2 ^ j) else acc.1,
       if v.getLsbD 8 then acc.2 ||| (1#4 <<< (j / 9)) else acc.2)) (0, 0)

/-- The failing octets of the piece whose first reached slice is row-slice number `i`: each is one event of PLOG (R261, R534). -/
def failsAt (x : Chan) (i : Nat) : List Nat :=
  let base := (i / x.slicesPer) * x.pieceOctets
  (List.range x.pieceOctets).filter (fun o =>
    (SMap.get (fun _ => 0) x.stage (base + o)).getLsbD 8 && x.firstAt (i % x.slicesPer) o)

/-- The physical fold of flock row `r` of CTU p's column (R239). -/
def ctuFold (c : Chip) (die p r : Nat) : Nat := foldIx die ((c.dieCols die).getD p 0) (r / 36)

/-- PLOG record of a channel (Table 8-7). -/
def ctuLog (die p ch src plane row : Nat) (c : Chip) : Chip :=
  c.log (pgCtu die p) 19 true (withField (withField (withField (withField 0 33 1 src) 29 4 ch) 16 13 plane) 6 10 row)

/-- The octets of piece q leave staging. -/
def Chan.dropPiece (x : Chan) (q : Nat) : Chan := { x with stage := SMap.drop (fun i => i / x.pieceOctets == q) x.stage }

/-- One inbound port access: the next staged row-slice is written (R85, R261); with none staged the fold's port stalls (Table 8-7). -/
def portIn (die p ch : Nat) (x : Chan) (c : Chip) : Chip :=
  if x.slicesPer * (x.fill / x.pieceOctets) ≤ x.moved then c.count (pgCtu die p) 20 1
  else
    let pr := x.place x.moved
    let s := stagedSlice x x.moved
    let c := portWrite (ctuFold c die p pr.2) pr.1 (pr.2 % 36) s.1 s.2 c
    let bad := s.2 != 0
    let fails := if bad then failsAt x x.moved else []
    let y := { x with moved := x.moved + 1, hperr := x.hperr || bad }
    let c := c.setChan die p ch (if y.moved % x.slicesPer = 0 then y.dropPiece (x.moved / x.slicesPer) else y)
    let c := fails.foldl (fun c _ => ctuLog die p ch 0 pr.1 pr.2 c) c
    if bad then c.raise (pgCtu die p) 32 else c

/-- An outbound row-slice enters staging: its bits reach their octets, a marked slice poisons them, and a dropped bit 8
sets DROP8 (R243, R247, R262). -/
def stageOut (x : Chan) (i : Nat) (w : Word) (mark : Bool) : Chan :=
  let base := (i / x.slicesPer) * x.pieceOctets
  (List.range 36).foldl (fun x j =>
    match x.octetOf (x.streamBit (i % x.slicesPer) j) with
    | none => if bitAt w j then { x with drop8 := true } else x
    | some (o, m) =>
      let v := SMap.get (fun _ => 0) x.stage (base + o)
      let v := if bitAt w j then v ||| (1#9 <<< m) else v
      let v := if mark then v ||| 0x100#9 else v
      { x with stage := SMap.set (fun _ => 0) x.stage (base + o) v }) x

/-- One outbound port access: the next row-slice is read into staging, where its piece has room; a whole piece is queued at the HBM
controllers, in requests of up to 64 octets (R258). -/
def portOut (die p ch : Nat) (x : Chan) (c : Chip) : Chip :=
  if x.moved % x.slicesPer = 0 ∧ stagingRoom c die p x.slicesPer = false then c else
  let pr := x.place x.moved
  let r := portRead (ctuFold c die p pr.2) pr.1 (pr.2 % 36) c
  let x := stageOut x x.moved r.1 r.2.1
  let x := { x with moved := x.moved + 1, pperr := x.pperr || r.2.1 }
  let x := if x.moved % x.slicesPer = 0 then
      let q := x.moved / x.slicesPer - 1
      let a := x.haddr + q * x.stride
      { x.dropPiece q with wq := x.wq ++ (chunks a x.pieceOctets).map (fun w =>
          (a + w.1, (List.range w.2).map (fun o => SMap.get (fun _ => 0) x.stage (q * x.pieceOctets + w.1 + o)))) }
    else x
  let c := r.2.2.setChan die p ch x
  if r.2.1 then (ctuLog die p ch 1 pr.1 pr.2 c).raise (pgCtu die p) 33 else c

/-- PORT_ACCESS (R85): one row-slice of a channel in RUN moves over the plane port. -/
def portAccess (die p ch : Nat) (c : Chip) : Chip :=
  let x := c.chan die p ch
  if x.st ≠ 4 ∨ x.code.isSome = true ∨ x.total ≤ x.moved ∨ c.halted die = true then c
  else if x.outbound then portOut die p ch x c else portIn die p ch x c

/-- RESERVATION_CLEAR (R254): after the last port access; an outbound channel enters DRAIN. -/
def reservationClear (die p ch : Nat) (c : Chip) : Chip :=
  let x := c.chan die p ch
  if x.st = 4 ∧ x.resv = true ∧ x.total ≤ x.moved then
    c.setChan die p ch { x with resv := false, st := if x.outbound then 5 else 4, code := some 0o00 }
  else c

/-- The HBM write of a channel's oldest queued request (R270, R273). -/
def ctuHbmWrite (die p ch : Nat) (c : Chip) : Chip :=
  let x := c.chan die p ch
  match x.wq with
  | [] => c
  | w :: rest =>
    if hbmUp c die then (c.hbmWrite die w.1 p w.2).setChan die p ch { x with wq := rest, fill := x.fill + w.2.length }
    else c

/-- CTU_GONE (R263): the controller answers GONE, and the channel ends as an abort with code GONE. -/
def ctuGone (die p ch : Nat) (c : Chip) : Chip :=
  let x := c.chan die p ch
  if (x.st = 4 ∨ x.st = 5) ∧ hbmUp c die = false then
    c.setChan die p ch { x with code := some 0o14, resv := false, wq := [], nochain := true }
  else c

end Sys2Proof.Machine
end

