-- ==== Sys2Proof/Machine/EventHub.lean ====
section
/-!
DEFINITION. The event hub: sources, levels, routes, vectors, MSI-X messages, bellwether lines, timers (R302, R394 to R397).
-/
namespace Sys2Proof.Machine

/-- Table 13-5: the source number of a page, if it has one. -/
def pageSource (p : Nat) : Option Nat :=
  match pageBlock p with
  | (.unlisted, _) => none
  | (.fold, i) => some i
  | (.ctu, i) => some (960 + i)
  | (.xbar, i) => some (996 + i)
  | (.hbmc, i) => some (1000 + i)
  | (.die, i) => some (1008 + i)
  | (.stop, i) => some (1012 + i)
  | _ => if p < 5 then some (1060 + p) else if p < 23 then some (1057 + p) else if p < 46 then some (1056 + p)
    else some (1054 + p)

/-- Every page that has a source. -/
def sourcePages : List Nat := (List.range 3072).filter (fun p => (pageSource p).isSome)

/-- Route entries after reset: TH for the Thonos page, GA for the Gander page (Table 13-9). -/
def routeDefault (s : Nat) : Word := if s = 1112 then 0o1000000 else if s = 1113 then 0o400000 else 0

def Chip.route (c : Chip) (s : Nat) : Word := SMap.get routeDefault c.evh.routes s
def Chip.level (c : Chip) (s : Nat) : Bool := SMap.get (fun _ => false) c.evh.levels s

/-- The sources whose level is 1. -/
def activeSources (c : Chip) : List Nat := (c.evh.levels.filter (fun e => e.2)).map (fun e => e.1)

/-- The OR of vector v (R396). -/
def vectorOr (c : Chip) (v : Nat) : Bool :=
  (activeSources c).any (fun s => bitAt (c.route s) 35 && fieldOf (c.route s) 27 8 == v)
/-- The vectors whose OR is 1. -/
def activeVectors (c : Chip) : List Nat := (List.range 256).filter (vectorOr c)

/-- Line (k, L) of core k (R396). -/
def lineOf (c : Chip) (k l : Nat) : Bool :=
  (activeSources c).any (fun s =>
    let m := fieldOf (c.route s) 23 4
    (m.testBit k || (c.linked && m != 0)) && fieldOf (c.route s) 19 4 == l)
/-- IPEND of core k (R198). -/
def ipend (c : Chip) (k : Nat) : Word :=
  (List.range 16).foldl (fun w l => if lineOf c k l then w ||| BitVec.ofNat 36 (2 ^ l) else w) 0
/-- The highest asserted level that reaches the threshold. -/
def topLevel (c : Chip) (k : Nat) : Option Nat :=
  ((List.range 16).reverse.find? (fun l => lineOf c k l)).filter (fun l => decide (c.ipl k ≤ l))

/-- The inputs of Thonos and Gander (R396). -/
def thonosInput (c : Chip) : Bool := (activeSources c).any (fun s => bitAt (c.route s) 18)
def ganderInput (c : Chip) : Bool := (activeSources c).any (fun s => bitAt (c.route s) 17)

/-! ### MSI-X (R383, R384, R397) -/

/-- Function and entry of a global vector (Table 13-2). -/
def vectorPlace (v : Nat) : Nat × Nat :=
  if v < 128 then (0, v) else if v < 160 then (1, v - 128) else if v < 224 then (2, v - 160) else (3, v - 224)
def vectorBase (f : Nat) : Nat := match f with | 0 => 0 | 1 => 128 | 2 => 160 | _ => 224
def vectorCount (f : Nat) : Nat := match f with | 0 => 128 | 1 => 32 | 2 => 64 | _ => 32

/-- The dwords of a table entry after reset: every vector masked (PCI Express; log entry 12). -/
def msixDefault (key : Nat) : BitVec 32 := if key % 4 = 3 then 1 else 0
def msixKey (f entry dw : Nat) : Nat := (f * 128 + entry) * 4 + dw
def Chip.msix (c : Chip) (key : Nat) : BitVec 32 := SMap.get msixDefault c.hst.msix key
def Chip.setMsix (c : Chip) (key : Nat) (v : BitVec 32) : Chip :=
  { c with hst := { c.hst with msix := SMap.set msixDefault c.hst.msix key v } }
def Chip.pbaOf (c : Chip) (v : Nat) : Bool := SMap.get (fun _ => false) c.hst.pba v
def Chip.setPba (c : Chip) (v : Nat) (b : Bool) : Chip :=
  { c with hst := { c.hst with pba := SMap.set (fun _ => false) c.hst.pba v b } }

/-- CFGMIR bits of a function (Table 13-8). -/
def pfBme (c : Chip) (f : Nat) : Bool := c.flag (pgPf f) 17 10
def pfMse (c : Chip) (f : Nat) : Bool := c.flag (pgPf f) 17 9
def pfMsixEn (c : Chip) (f : Nat) : Bool := c.flag (pgPf f) 17 8
def pfMask (c : Chip) (f : Nat) : Bool := c.flag (pgPf f) 17 7
def pfD3 (c : Chip) (f : Nat) : Bool := c.flag (pgPf f) 17 11

/-- Max Payload Size and Max Read Request Size codes after reset: 128 and 512 octets (PCI Express; log entry 12). -/
def sizesDefault (_ : Nat) : Nat × Nat := (0, 2)
/-- Octets of the Max Payload Size and of the Max Read Request Size of function f (Table 13-1). -/
def maxPayload (c : Chip) (f : Nat) : Nat := 128 * 2 ^ (SMap.get sizesDefault c.hst.sizes f).1
def maxReadRequest (c : Chip) (f : Nat) : Nat := 128 * 2 ^ (SMap.get sizesDefault c.hst.sizes f).2

/-- AER records an uncorrectable error of function f (Table 13-1; bit places of PCI Express): 12 a poisoned TLP, 14 a completion timeout,
15 a completer abort, 18 a malformed TLP, 20 an unsupported request. -/
def aerSet (f bit : Nat) (c : Chip) : Chip :=
  { c with hst := { c.hst with aer := SMap.set (fun _ => 0) c.hst.aer f (SMap.get (fun _ => 0) c.hst.aer f ||| BitVec.ofNat 32 (2 ^ bit)) } }

/-- What configuration space says of function f: Vendor ID, Device ID, Revision ID and Class Code (R382, Table 13-2). -/
def cfgIdentity (f : Nat) : BitVec 16 × BitVec 16 × BitVec 8 × BitVec 24 :=
  (BitVec.ofNat 16 (Config.factory 19 0), 0x7236, BitVec.ofNat 8 (Config.factory 20 0), if f = 3 then 0x088000 else 0x120000)

/-- The half that carries a function (Table 13-2). -/
def pfHalf (c : Chip) (f : Nat) : Nat := if bifurcated c then f / 2 else 0
def linkUp (c : Chip) (h : Nat) : Bool := c.fld (pgPcie h) 3 0 3 == 2

/-- A vector sends its message, or is recorded as pending, or is dropped (R397). -/
def sendVector (v : Nat) (c : Chip) : Chip :=
  let p := vectorPlace v
  let d (i : Nat) : Nat := (c.msix (msixKey p.1 p.2 i)).toNat
  if !pfMsixEn c p.1 then c
  else if (c.msix (msixKey p.1 p.2 3)).getLsbD 0 || pfMask c p.1 || !pfBme c p.1 || !linkUp c (pfHalf c p.1)
  then c.setPba v true
  else { c with out := c.out ++ [.msix p.1 v (d 1 * 2 ^ 32 + d 0) (d 2)] }

/-- MSIX_PENDING_SEND (R397): a pending vector that nothing masks any more sends its message if its OR is still 1. -/
def sendPending (v : Nat) (c : Chip) : Chip :=
  let p := vectorPlace v
  if c.pbaOf v && !(c.msix (msixKey p.1 p.2 3)).getLsbD 0 && !pfMask c p.1 && pfBme c p.1 && pfMsixEn c p.1 &&
      linkUp c (pfHalf c p.1) then
    let c' := c.setPba v false
    if vectorOr c v then sendVector v c' else c'
  else c

/-- A change of levels or routes, with the messages of the vectors whose OR rises and the rise of Gander's input. -/
def hubChange (f : Chip → Chip) (c : Chip) : Chip :=
  let c' := f c
  let rose := (activeVectors c').filter (fun v => !vectorOr c v)
  let c' := rose.foldl (fun c v => sendVector v c) c'
  let ga := ganderInput c'
  let c' := c'.setFlag pgGander 3 5 ga
  if ga && !ganderInput c then { c' with evh := { c'.evh with gaRise := true } } else c'

def Chip.setLevel (c : Chip) (s : Nat) (b : Bool) : Chip :=
  { c with evh := { c.evh with levels := SMap.set (fun _ => false) c.evh.levels s b } }
def setLevel (s : Nat) (b : Bool) (c : Chip) : Chip := hubChange (fun c => c.setLevel s b) c
def setRoute (s : Nat) (v : Word) (c : Chip) : Chip :=
  hubChange (fun c => { c with evh := { c.evh with routes := SMap.set routeDefault c.evh.routes s v } }) c

/-- The stop that sends the EVL packets of a page, and their channel: priority from the AON, VOTE and THONOS pages (R292, R300). -/
def evlWay (p : Nat) : (Nat × Nat) × Bool := ((servingStop p).getD (0, 4 * (p / 512 - 2)), p == pgAon || p == pgVote || p == pgThonos)

/-- EVL (R302, R306, R394): the oldest packet of a page arrives, after those before it on its way; during a rescan it waits (R395), and a
discarded header loses it (R298). The event hub's stop never closes or goes into reconfiguration (R309), so no other EVL is dropped. -/
def evlArrive (p hdr : Nat) (c : Chip) : Chip :=
  if c.flag pgEvh 3 0 then c
  else match c.evls.find? (fun e => evlWay e.1 == evlWay p) with
    | none => c
    | some e =>
      if e.1 ≠ p then c
      else
      let h := headerOk (0, 10) hdr { c with evls := c.evls.erase e }
      let c := h.2
      if !h.1 then c else
      match pageSource p with
      | some s => setLevel s e.2 c
      | none => c.raise pgEvh 1

/-- The levels of the pages of a domain that has gone off (R395). -/
def levelsOff (ps : List Nat) (c : Chip) : Chip :=
  hubChange (fun c => ps.foldl (fun c p => match pageSource p with | some s => c.setLevel s false | none => c) c) c

/-- EVH_RESCAN_DONE (R395): every level is read from its page, `gone` telling which pages answer GONE. -/
def rescanDone (gone : Nat → Bool) (c : Chip) : Chip :=
  if c.flag pgEvh 3 0 then
    let c := hubChange (fun c => sourcePages.foldl (fun c p =>
      match pageSource p with
      | some s => c.setLevel s (!gone p && c.evOut p)
      | none => c) c) c
    ((c.setFlag pgEvh 3 0 false).setFlag pgEvh 2 0 false).raise pgEvh 0
  else c

/-- A write of TMRi (R394): the level is cleared and the timer armed. -/
def timerArm (i : Nat) (v : Word) (c : Chip) : Chip :=
  let c := setLevel (1146 + i) false (c.setReg pgEvh (66 + i) v)
  { c with evh := { c.evh with armed := SMap.set (fun _ => false) c.evh.armed i true } }

/-- The rule of R370: TALLY[35:0] has reached `t` when (TALLY − t) modulo 2^36 is below 2^35. -/
def tallyReached (c : Chip) (t : Word) : Bool := decide ((c.tally.setWidth 36 - t).toNat < 2 ^ 35)

/-- EVH_TIMER_EXPIRY (R394). -/
def timerExpiry (i : Nat) (c : Chip) : Chip :=
  if SMap.get (fun _ => false) c.evh.armed i && tallyReached c (c.reg pgEvh (66 + i)) then
    setLevel (1146 + i) true { c with evh := { c.evh with armed := SMap.set (fun _ => false) c.evh.armed i false } }
  else c

/-- EVH_VACK (R397). -/
def vack (v : Nat) (c : Chip) : Chip := if vectorOr c v then sendVector v c else c

/-- A read of slot 32 + w of the EVH page, of SWEV, and of VORj (Table 13-9). -/
def levelWord (c : Chip) (w : Nat) : Word :=
  (List.range 36).foldl (fun x i => if c.level (36 * w + i) then x ||| BitVec.ofNat 36 (2 ^ i) else x) 0
def swevWord (c : Chip) : Word :=
  (List.range 32).foldl (fun x i => if c.level (1114 + i) then x ||| BitVec.ofNat 36 (2 ^ i) else x) 0
def vorWord (c : Chip) (j : Nat) : Word :=
  (List.range 32).foldl (fun x i => if vectorOr c (32 * j + i) then x ||| BitVec.ofNat 36 (2 ^ i) else x) 0

/-- A write of SWEV (clears) or SWEVSET (sets) (Table 13-9). -/
def swevWrite (v : Word) (b : Bool) (c : Chip) : Chip :=
  hubChange (fun c => (List.range 32).foldl (fun c i => if bitAt v i then c.setLevel (1114 + i) b else c) c) c

/-- A write of RTDATA (R396): TH stays unless Thonos writes; RTADDR advances. -/
def routeWrite (thonos : Bool) (v : Word) (c : Chip) : Chip :=
  let s := c.fld pgEvh 16 0 11
  let old := c.route s
  let v := withField v 0 17 0
  let v := if thonos then v else withField v 18 1 (fieldOf old 18 1)
  (setRoute s v c).setReg pgEvh 16 (BitVec.ofNat 36 (if s = 1151 then 0 else s + 1))

end Sys2Proof.Machine
end

