-- ==== Sys2Proof/Machine/Collie.lean ====
section
/-!
DEFINITION. The collie engines: channels, instructions, shift units, pins, program store (R354 to R379).
-/
namespace Sys2Proof.Machine

def Chip.cch (c : Chip) (e h : Nat) : CChan := SMap.get (fun _ => CChan.init) c.col.chans (e * 16 + h)
def Chip.setCch (c : Chip) (e h : Nat) (x : CChan) : Chip :=
  { c with col := { c.col with chans := SMap.set (fun _ => CChan.init) c.col.chans (e * 16 + h) x } }

namespace CChan
def word (x : CChan) (i : Nat) : Word := x.entry.getD i 0
def pstart (x : CChan) : Nat := fieldOf (x.word 0) 24 11
def plen (x : CChan) : Nat := fieldOf (x.word 0) 12 12
def cdiv (x : CChan) : Nat := fieldOf (x.word 0) 0 12
def wlen (x : CChan) : Nat := fieldOf (x.word 1) 30 6
def dwidth (x : CChan) : Nat := fieldOf (x.word 1) 26 4
def obase (x : CChan) : Nat := fieldOf (x.word 1) 22 4
def ibase (x : CChan) : Nat := fieldOf (x.word 1) 18 4
def msb (x : CChan) : Bool := bitAt (x.word 1) 17
def cken (x : CChan) : Bool := bitAt (x.word 1) 16
def ckpin (x : CChan) : Nat := fieldOf (x.word 1) 12 4
def cpol (x : CChan) : Bool := bitAt (x.word 1) 11
def sedge (x : CChan) : Bool := bitAt (x.word 1) 10
def qdepth (x : CChan) : Nat := fieldOf (x.word 1) 8 2
/-- Words that each queue holds (R355, R362). -/
def depth (x : CChan) : Nat := if x.st < 2 then 8 else 8 * (x.qdepth + 1)
def inWindow (x : CChan) (pc : Nat) : Bool := decide (x.pstart ≤ pc) && decide (pc < x.pstart + x.plen)
/-- No shift runs, waits or holds a word (R364, R366). -/
def shiftIdle (x : CChan) : Bool := x.run.isNone && x.queued.isNone && x.held.isNone
def gr (x : CChan) (i : Nat) : Word := x.g.getD i 0
def setG (x : CChan) (i : Nat) (v : Word) : CChan := { x with g := x.g.set i v }
end CChan

/-! ### Pins (R356) -/

def Chip.cpin (c : Chip) (e p : Nat) : Bool × Bool := SMap.get (fun _ => (false, false)) c.col.pins (e * 9 + p)
/-- A pin is driven to a level, or released; a level that is driven shows outside. -/
def Chip.putPin (c : Chip) (e p : Nat) (oe level : Bool) : Chip :=
  let c := { c with col := { c.col with pins := SMap.set (fun _ => (false, false)) c.col.pins (e * 9 + p) (oe, level) } }
  if oe then { c with out := c.out ++ [.pin e p level] } else c
def pinOwner (c : Chip) (e p : Nat) : Nat := c.fld (pgCollie e) (32 + p) 4 5
def pins9 : List Nat := List.range 9
def ownedPins (c : Chip) (e h : Nat) : List Nat := pins9.filter (fun p => pinOwner c e p == h)
/-- The channel's pins go to their idle levels. -/
def idlePins (e h : Nat) (c : Chip) : Chip :=
  (ownedPins c e h).foldl (fun c p =>
    let w := c.reg (pgCollie e) (32 + p)
    if bitAt w 3 then c.putPin e p true (bitAt w 2) else c.putPin e p false false) c
/-- What a sample of pin p sees: the level that the device drives, else the level outside. -/
def sampleOf (c : Chip) (e : Nat) (ext : BitVec 9) (p : Nat) : Bool :=
  if (c.cpin e p).1 then (c.cpin e p).2 else ext.getLsbD p

/-! ### Completion (R359, R375) -/

def cStat (e : Nat) : Nat := pgCollie e
/-- The channel ends with a code, at the PC that the status word shows. A channel that ends before it runs changes no pin (R359). A stop has
the effects of a forced swap (R375). -/
def endChan (e h code pc : Nat) (c : Chip) : Chip :=
  let st := withField (withField (withField 0 35 1 1) 30 5 code) 19 11 pc
  let a := (c.cch e h).base + 32 * h + 28
  let c := if 1 ≤ code ∧ code ≤ 6 then c else idlePins e h c
  let c := if bankAt a = some 6 then bankAccess 6 (some (.write ((a - bankBase 6) / 4) st allNonets)) none c else c
  let x := c.cch e h
  let bad := decide (1 < code)
  let x := { x with
      st := 0, pc := pc, loop := none, run := none, queued := none, stalled := false, wait := none, timed := none, swap := none
      redirect := none, regrid := false, sync := false, held := none
      ser := if bad then 0 else x.ser, sern := if bad then 0 else x.sern
      des := if bad then 0 else x.des, desn := if bad then 0 else x.desn }
  let c := (c.setCch e h x).setFld (cStat e) (48 + h) 28 5 code
  let c := if code = 0o13 then (c.setFlag (cStat e) (48 + h) 12 true).raise (cStat e) 32 else c
  c.raise (cStat e) (if bad then 16 + h else h)

/-! ### Starting (R358 to R362, R377) -/

/-- Channels that a running channel with QDEPTH chains into its queues (R362). -/
def chainedInto (c : Chip) (e h : Nat) : Bool :=
  (List.range 16).any (fun o =>
    let y := c.cch e o
    decide (o < h) && decide (2 ≤ y.st) && decide (h ≤ o + y.qdepth))

/-- Whether the channels of a mask may start (R360). -/
def mayStartChans (c : Chip) (e : Nat) (mask : Word) : Bool :=
  (List.range 16).all (fun h => !bitAt mask h || ((c.cch e h).st == 0 && !chainedInto c e h))

/-- A channel begins to load its entry. -/
def loadChan (e h : Nat) (sync : Bool) (c : Chip) : Chip :=
  c.setCch e h { c.cch e h with st := 1, sync := sync, base := (c.reg (cStat e) 16).toNat }

/-- A write of CHSTART (R360). -/
def collieStart (e : Nat) (v : Word) (c : Chip) : Chip :=
  if mayStartChans c e v then
    ((List.range 16).filter (fun h => bitAt v h)).foldl (fun c h => loadChan e h false c) c
  else c.refuse (cStat e) 17 2

/-- Words read through the owner port of the collie bank; nothing when one cannot be read. -/
def ownWords (b n a : Nat) (c : Chip) : Option (List Word) × Chip :=
  if a % 4 ≠ 0 ∨ inBank b a n = false ∨ bankOn c b = false then (none, c)
  else (List.range n).foldl (fun (x : Option (List Word) × Chip) i =>
    let r := x.2.bankRead b (a + 4 * i) 0 allNonets
    (if r.2.1 then none else x.1.map (fun ws => ws ++ [r.1]), r.2.2)) (some [], c)

/-- The first failing check of Table 12-2 from 0o03. -/
def entryCheck (c : Chip) (e h : Nat) (x : CChan) : Option Nat :=
  let d := x.dwidth
  let own (p : Nat) : Bool := pinOwner c e p == h
  if 36 < x.wlen ∨ ([0, 1, 2, 4, 8, 9].contains d) = false ∨ 8 < x.obase ∨ 8 < x.ibase ∨ 8 < x.ckpin ∨
      fieldOf (x.word 1) 0 8 ≠ 0 ∨ x.word 6 ≠ 0 then some 3
  else if 2048 < x.pstart + x.plen ∨ (d ≠ 0 ∧ (x.wlen = 0 ∨ x.wlen % d ≠ 0)) ∨ (d = 0 ∧ x.wlen ≠ 0) ∨
      9 < x.obase + d ∨ 9 < x.ibase + d ∨ 15 < h + x.qdepth then some 4
  else if (List.range d).any (fun i => !own (x.obase + i)) = true ∨ (x.cken && !own x.ckpin) = true then some 5
  else if (List.range x.qdepth).any (fun i => (c.cch e (h + 1 + i)).st != 0) = true then some 6
  else none

/-- The TALLY tick of the next PCLK edge: edges fall on even ticks (R357). -/
def edgeTick (c : Chip) : BitVec 64 := if c.tally.getLsbD 0 then c.tally + 1 else c.tally

/-- The channel runs: idle pins, G0 to G3, PC and half, and its step grid from this edge (R359, R363); a forced swap before the start
gives the half and the PC (R374). -/
def runChan (e h : Nat) (c : Chip) : Chip :=
  let c := idlePins e h c
  let x := c.cch e h
  let start := x.redirect.getD (false, x.pstart)
  let depth := 8 * (x.qdepth + 1)
  let lost := (x.outq.length - depth) + (x.inq.length - depth)
  let c := if lost = 0 then c else (c.count (cStat e) 41 lost).raise (cStat e) 35
  c.setCch e h { x with
      st := 2, half := bitAt (x.word 0) 35 != start.1, pc := start.2, g := (x.entry.drop 2).take 4, sern := 0, desn := 0, ser := 0, des := 0
      outq := x.outq.take depth, inq := x.inq.take depth, redirect := none, grid := edgeTick c, regrid := false }

/-- COLLIE_ENTRY_LOADED (R358, R359). -/
def entryLoaded (e h : Nat) (c : Chip) : Chip :=
  let x := c.cch e h
  if x.st ≠ 1 ∨ bankClearing c 6 = true then c
  else
    let r := ownWords 6 7 (x.base + 32 * h) c
    match r.1 with
    | none => endChan e h 2 0 r.2
    | some ws =>
      let x := { x with entry := ws }
      let c := r.2.setCch e h x
      match entryCheck c e h x with
      | some code => endChan e h code 0 c
      | none =>
        if x.plen = 0 then endChan e h 1 0 c
        else if x.sync then c.setCch e h { x with st := 5 } else runChan e h c

/-- LATE of a channel (R370, R377). -/
def setLate (e h : Nat) (c : Chip) : Chip := (c.setFlag (cStat e) (48 + h) 13 true).raise (cStat e) 34

/-- COLLIE_ARM (R377): a write of ARM. -/
def armWrite (e : Nat) (v : Word) (c : Chip) : Chip :=
  if mayStartChans c e v then
    let c := c.setReg (cStat e) 26 (v &&& 0xffffffff)
    let late := tallyReached c (c.reg (cStat e) 25)
    let named := (List.range 16).filter (fun h => bitAt v h || bitAt v (16 + h))
    let c := ((List.range 16).filter (fun h => bitAt v h)).foldl (fun c h => loadChan e h true c) c
    if late then named.foldl (fun c h => setLate e h c) c else c
  else c.refuse (cStat e) 26 2

/-- SYNC_START (R377): TSTART is reached, and the armed channels start. -/
def syncStart (e : Nat) (c : Chip) : Chip :=
  let v := c.reg (cStat e) 26
  let armed := (List.range 16).filter (fun h => bitAt v h)
  if v = 0 ∨ tallyReached c (c.reg (cStat e) 25) = false ∨ armed.any (fun h => (c.cch e h).st == 1) = true then c
  else
    let c := ((List.range 16).filter (fun h => (c.cch e h).st == 5)).foldl (fun c h => runChan e h c) c
    let c := ((List.range 16).filter (fun h => bitAt v (16 + h) && (c.cch e h).st == 2)).foldl (fun c h =>
      let x := c.cch e h
      if x.shiftIdle then c.setCch e h { x with grid := edgeTick c } else setLate e h (c.setCch e h { x with regrid := true })) c
    c.setReg (cStat e) 26 0

/-! ### Program store (R373, R374) -/

def psCell (v : Nat) : BitVec 20 :=
  let p (n : Nat) : BitVec 1 := BitVec.ofBool (parityOf 9 n)
  p (v / 512 % 512) ++ p (v % 512) ++ BitVec.ofNat 18 v
def psBad (x : BitVec 20) : Bool := x != psCell (x.setWidth 18).toNat
def Chip.psWord (c : Chip) (e a : Nat) : BitVec 20 := SMap.get (fun _ => 0) c.col.ps (e * 4096 + a)
def Chip.setPs (c : Chip) (e a v : Nat) : Chip :=
  { c with col := { c.col with ps := SMap.set (fun _ => 0) c.col.ps (e * 4096 + a) (psCell v) } }

/-- The half from which a channel that is not IDLE runs, or is to run once it has loaded the entry that the bank now holds. -/
def chanHalf (c : Chip) (e h : Nat) : Bool :=
  let x := c.cch e h
  let flip := (x.redirect.getD (false, 0)).1
  match x.st with
  | 1 => bitAt (c.bankWord (x.base + 32 * h)) 35 != flip
  | 5 => bitAt (x.word 0) 35 != flip
  | _ => x.half

/-- A half is active (R374). -/
def halfActive (c : Chip) (e : Nat) (half : Bool) : Bool :=
  (List.range 16).any (fun h => (c.cch e h).st != 0 && (chanHalf c e h == half || (c.cch e h).swap.isSome))

/-- A write of PSDATA (R373, R374). -/
def psWrite (e : Nat) (v : Word) (c : Chip) : Chip :=
  let a := c.fld (cStat e) 20 0 12
  if halfActive c e (decide (2048 ≤ a)) then c.refuse (cStat e) 21 2
  else
    let c := (c.setPs e a (fieldOf v 18 18)).setPs e (a + 1) (fieldOf v 0 18)
    c.setReg (cStat e) 20 (BitVec.ofNat 36 (a / 2048 * 2048 + (a + 2) % 2048))
def psRead (c : Chip) (e : Nat) : Word :=
  let a := c.fld (cStat e) 20 0 12
  (c.psWord e a).setWidth 18 ++ (c.psWord e (a + 1)).setWidth 18

/-! ### Instructions (Tables 12-3, 12-4) -/

/-- The operations of Tables 12-3 and 12-4. -/
inductive CTag where
  | sho | shi | shb | pin | waitp | waitf | waite | setf | at | ldi | addi | jmp | loop | loopg
  | pull | push | mov | add | sub | and | or | xor | not | stampw | stampa | take | sig | finish | time | flusho | cmpu
  | reserved
deriving DecidableEq, Repr

/-- Bits [hi:lo] of an instruction. -/
def cf (v lo n : Nat) : Nat := v / 2 ^ lo % 2 ^ n

def cTag (v : Nat) : CTag :=
  match cf v 14 4 with
  | 1 => .sho | 2 => .shi | 3 => .shb | 4 => .pin | 5 => .waitp | 6 => .waitf | 7 => .waite | 8 => .setf | 9 => .at
  | 10 => .ldi | 11 => .addi | 13 => .jmp | 14 => .loop | 15 => .loopg
  | 12 => match cf v 9 5 with
    | 0 => .pull | 1 => .push | 2 => .mov | 3 => .add | 4 => .sub | 5 => .and | 6 => .or | 7 => .xor | 8 => .not
    | 9 => .stampw | 10 => .stampa | 11 => .take | 12 => .sig | 13 => .finish | 14 => .time | 15 => .flusho | 16 => .cmpu
    | _ => .reserved
  | _ => .reserved

/-- The instruction holds no reserved encoding, and its unused fields are zero (R367, R371, R372). -/
def cLegal (v : Nat) : Bool :=
  let gd := cf v 7 2
  let gs := cf v 5 2
  match cTag v with
  | .sho | .shi | .shb | .ldi | .addi | .loop => true
  | .pin => cf v 9 3 == 0
  | .waitp => cf v 0 8 == 0 && decide (cf v 8 4 ≤ 8)
  | .waitf => cf v 4 8 == 0 && !(cf v 12 1 == 1 && cf v 13 1 == 0)
  | .waite => cf v 4 9 == 0 && decide (cf v 0 4 ≤ 12)
  | .setf => cf v 4 8 == 0 && cf v 12 2 != 3
  | .at => cf v 0 12 == 0
  | .jmp => cf v 11 3 != 7
  | .loopg => cf v 0 6 == 0
  | .pull | .take | .time => cf v 0 5 == 0 && gs == 0
  | .push => cf v 0 5 == 0 && gd == 0
  | .mov | .add | .sub | .and | .or | .xor | .not | .cmpu => cf v 0 5 == 0
  | .stampw | .stampa => cf v 0 5 == 0 && gs == 0 && gd % 2 == 0
  | .sig | .finish | .flusho => cf v 0 5 == 0 && gd == 0 && gs == 0
  | .reserved => false

/-- Instructions that wait for an idle shift unit (R364). -/
def cWaits : CTag → Bool
  | .pin | .waitp | .at | .pull | .push | .take | .flusho | .stampw | .stampa | .finish => true
  | _ => false

/-- PC after the instruction at PC, with a running loop (R368). -/
def cNext (x : CChan) : CChan :=
  match x.loop with
  | some (first, last, left) =>
    if x.pc = last then
      (if 1 < left then { x with pc := first, loop := some (first, last, left - 1) } else { x with pc := x.pc + 1, loop := none })
    else { x with pc := x.pc + 1 }
  | none => { x with pc := x.pc + 1 }

/-- The running shift has ended: the queued one follows, and a restart of the grid that waited for an idle shift unit happens (R364, R377). -/
def shiftDone (c : Chip) (x : CChan) : CChan :=
  if x.queued.isNone && x.regrid then { x with run := none, grid := edgeTick c, regrid := false } else { x with run := x.queued, queued := none }

/-- A stalled PULL or PUSH and a held word go on once their queue lets them (R366). -/
def resumeStall (e h : Nat) (c : Chip) : Chip :=
  let x := c.cch e h
  let x := match x.wait, x.outq with
    | some (.pull gd), w :: rest => { x.setG gd w with outq := rest, wait := none }
    | _, _ => x
  let x := match x.wait with
    | some (.push v) => if x.inq.length < x.depth then { x with inq := x.inq ++ [v], wait := none } else x
    | _ => x
  let x := match x.held with
    | some w => if x.inq.length < x.depth then { x with inq := x.inq ++ [w], held := none, des := 0, desn := 0 } else x
    | none => x
  let x := match x.run with
    | some r => if r.n = 0 ∧ x.held.isNone = true then shiftDone c x else x
    | none => x
  c.setCch e h x

/-- The action of a PIN (Table 12-3). -/
def pinAct (e act mask : Nat) (c : Chip) : Chip :=
  (pins9.filter (fun p => mask.testBit p)).foldl (fun c p =>
    let l := c.cpin e p
    match act with
    | 0 => c.putPin e p true false
    | 1 => c.putPin e p true true
    | 2 => c.putPin e p false false
    | _ => c.putPin e p l.1 (!l.2)) c

/-- JMP conditions. -/
def cCond (x : CChan) (code : Nat) : Bool :=
  match code with
  | 0 => true | 1 => x.gr 0 == 0 | 2 => x.gr 0 != 0 | 3 => x.gr 0 == x.gr 1 | 4 => decide ((x.gr 0).toNat < (x.gr 1).toNat)
  | 5 => x.outq.isEmpty | 6 => decide (x.depth ≤ x.inq.length) | _ => false

/-- The DESN bits assembled, in arrival order (R365). -/
def takeBits (x : CChan) : Word :=
  let sh := if x.msb then x.wlen - x.desn else 0
  BitVec.ofNat 36 (x.des.toNat / 2 ^ sh % 2 ^ x.desn)

/-- A jump to a target (R368). -/
def cJump (e h target : Nat) (x : CChan) (c : Chip) : Chip :=
  if !x.inWindow target then endChan e h 0o10 target c
  else
    let keep := match x.loop with | some (a, b, _) => decide (a ≤ target) && decide (target ≤ b) | none => false
    c.setCch e h { x with pc := target, loop := if keep then x.loop else none }

/-- LOOP and LOOPG (R368). -/
def cLoop (e h b count : Nat) (x : CChan) (c : Chip) : Chip :=
  if x.loop.isSome then endChan e h 7 x.pc c
  else if b ≠ 0 ∧ x.inWindow (x.pc + b) = false then endChan e h 0o10 ((x.pc + b) % 2048) c
  else if b = 0 ∨ count = 0 then c.setCch e h { x with pc := x.pc + 1 + b }
  else c.setCch e h { x with pc := x.pc + 1, loop := some (x.pc + 1, x.pc + b, count) }

/-- The effect of SHO, SHI and SHB (R364, R370). -/
def cShift (e h n : Nat) (out inp : Bool) (x : CChan) (c : Chip) : Chip :=
  if n ≠ 0 ∧ x.cdiv = 0 then endChan e h 0o12 x.pc c
  else
    let y := { cNext x with timed := none }
    if n = 0 then c.setCch e h y
    else
      let s : Shift := ⟨out, inp, n, x.timed⟩
      if x.run.isNone then c.setCch e h { y with run := some s }
      else if x.queued.isNone then c.setCch e h { y with queued := some s }
      else c

/-- The flags of an engine. -/
def Chip.cflag (c : Chip) (e f : Nat) : Bool := c.flag (cStat e) 22 f
def Chip.setCflag (c : Chip) (e f : Nat) (v : Bool) : Chip := c.setFlag (cStat e) 22 f v

/-- The effect of a legal instruction `v`, once nothing holds it. -/
def cExec (e h v : Nat) (x : CChan) (c : Chip) : Chip :=
  let gd := cf v 7 2
  let gs := cf v 5 2
  let put (w : Word) : Chip := c.setCch e h ((cNext x).setG gd w)
  match cTag v with
  | .sho => cShift e h (cf v 0 14) true false x c
  | .shi => cShift e h (cf v 0 14) false true x c
  | .shb => cShift e h (cf v 0 14) true true x c
  | .pin =>
    let mask := cf v 0 9
    if pins9.any (fun p => mask.testBit p && pinOwner c e p != h) then endChan e h 7 x.pc c
    else match x.timed with
      | some t => c.setCch e h { cNext x with timed := none, wait := some (.atPin t (cf v 12 2) mask) }
      | none => pinAct e (cf v 12 2) mask (c.setCch e h (cNext x))
  | .waitp => c.setCch e h { cNext x with wait := some (.pin (cf v 12 2) (cf v 8 4) none) }
  | .waitf =>
    let f := cf v 0 4
    let want := cf v 13 1 == 1
    if c.cflag e f == want then
      let c := c.setCch e h (cNext x)
      if cf v 12 1 = 1 then c.setCflag e f false else c
    else c.setCch e h { cNext x with wait := some (.flag f want (cf v 12 1 == 1)) }
  | .waite =>
    let n := cf v 0 4
    if x.events.getLsbD n then
      c.setCch e h (if cf v 13 1 = 1 then { cNext x with events := x.events &&& ~~~(1#16 <<< n) } else cNext x)
    else c.setCch e h { cNext x with wait := some (.event n (cf v 13 1 == 1)) }
  | .setf =>
    let f := cf v 0 4
    let new := match cf v 12 2 with | 0 => false | 1 => true | _ => !c.cflag e f
    (c.setCch e h (cNext x)).setCflag e f new
  | .at =>
    let t := x.gr (cf v 12 2)
    let c := if tallyReached c t then setLate e h c else c
    c.setCch e h { cNext x with timed := some t }
  | .ldi => c.setCch e h ((cNext x).setG (cf v 12 2) (BitVec.ofNat 36 (cf v 0 12)))
  | .addi => c.setCch e h ((cNext x).setG (cf v 12 2) (x.gr (cf v 12 2) + (BitVec.ofNat 12 v).signExtend 36))
  | .jmp => if cCond x (cf v 11 3) then cJump e h (cf v 0 11) x c else c.setCch e h (cNext x)
  | .loop => cLoop e h (cf v 8 6) (cf v 0 8) x c
  | .loopg => cLoop e h (cf v 8 6) (x.gr (cf v 6 2)).toNat x c
  | .pull => resumeStall e h (c.setCch e h { cNext x with wait := some (.pull gd) })
  | .push => resumeStall e h (c.setCch e h { cNext x with wait := some (.push (x.gr gs)) })
  | .mov => put (x.gr gs)
  | .add => put (x.gr gd + x.gr gs)
  | .sub => put (x.gr gd - x.gr gs)
  | .and => put (x.gr gd &&& x.gr gs)
  | .or => put (x.gr gd ||| x.gr gs)
  | .xor => put (x.gr gd ^^^ x.gr gs)
  | .not => put (~~~(x.gr gs))
  | .stampw => c.setCch e h (((cNext x).setG gd (x.stampW.setWidth 36)).setG (gd + 1) ((x.stampW >>> 36).setWidth 36))
  | .stampa => c.setCch e h (((cNext x).setG gd (x.stampA.setWidth 36)).setG (gd + 1) ((x.stampA >>> 36).setWidth 36))
  | .take => c.setCch e h { (cNext x).setG gd (takeBits x) with des := 0, desn := 0 }
  | .sig => ((c.setCch e h (cNext x)).setFlag (cStat e) (48 + h) 14 true).raise (cStat e) 33
  | .finish => endChan e h 0 x.pc c
  | .time => put (c.tally.setWidth 36)
  | .flusho => c.setCch e h { cNext x with ser := 0, sern := 0 }
  | .cmpu => put (ofBool (decide ((x.gr gd).toNat < (x.gr gs).toNat)))
  | .reserved => endChan e h 7 x.pc c

/-- SHO, SHI and SHB. -/
def cIsShift (t : CTag) : Bool := t == .sho || t == .shi || t == .shb

/-- The address in the program store of a channel's next instruction, and its stored bits. -/
def storeAddr (x : CChan) : Nat := (if x.half then 2048 else 0) + x.pc
/-- Instruction `v` may stand there: it is legal, and after AT it is a PIN or a shift (R367, R370). -/
def cAllowed (x : CChan) (v : Nat) : Bool := cLegal v && (x.timed.isNone || cTag v == .pin || cIsShift (cTag v))
/-- Instruction `v` waits for the shift unit (R364). -/
def cHeld (x : CChan) (v : Nat) : Bool :=
  cAllowed x v && ((cWaits (cTag v) && !x.shiftIdle) || (cIsShift (cTag v) && x.queued.isSome && cf v 0 14 != 0 && x.cdiv != 0))

/-- Channel h may have its next instruction issued: it neither waits nor stalls, and its instruction does not wait for the shift unit
(R357, R364). -/
def chanReady (c : Chip) (e h : Nat) : Bool :=
  let x := c.cch e h
  let w := c.psWord e (storeAddr x)
  x.st == 2 && x.wait.isNone && x.swap.isNone && !(x.inWindow x.pc && !psBad w && cHeld x (w.setWidth 18).toNat)

/-- Channel h is the first ready one in round robin after the channel served last (R357). -/
def chanTurn (c : Chip) (e h : Nat) : Bool :=
  let l := SMap.get (fun _ => 15) c.col.last e
  chanReady c e h && (List.range ((h + 15 - l) % 16)).all (fun i => !chanReady c e ((l + 1 + i) % 16))

def Chip.served (c : Chip) (e h : Nat) : Chip := { c with col := { c.col with last := SMap.set (fun _ => 15) c.col.last e h } }

/-- An instruction command: channel h of engine e fetches at PC when its turn has come; a PC outside the window and a failed parity check
end the channel, and the instruction executes if it is the operation named (R357, R367, R368, R373). -/
def collieStep (e h : Nat) (tag : CTag) (c : Chip) : Chip :=
  let x := c.cch e h
  if colOff c e || !chanTurn c e h then c
  else if !x.inWindow x.pc then endChan e h 0o10 (x.pc % 2048) (c.served e h)
  else
    let w := c.psWord e (storeAddr x)
    let v := (w.setWidth 18).toNat
    if psBad w then endChan e h 0o11 x.pc ((c.served e h).log (cStat e) 42 false (BitVec.ofNat 36 (storeAddr x)))
    else if cTag v ≠ tag then c
    else if !cAllowed x v then endChan e h 7 x.pc (c.served e h)
    else cExec e h v x (c.served e h)

/-! ### Shift unit (R363 to R366) -/

/-- A stalled step (R366). -/
def stallStep (e h : Nat) (x : CChan) (c : Chip) : Chip :=
  (c.setCch e h { x with stalled := true }).count (cStat e) (64 + h) 1

/-- The output side of a step: the bits driven. -/
def stepOut (e h : Nat) (x : CChan) (c : Chip) : Chip :=
  let x := if x.sern = 0 then
      { x with ser := BitVec.ofNat 36 ((x.outq.headD 0).toNat % 2 ^ x.wlen), outq := x.outq.tail, sern := x.wlen } else x
  let k := x.wlen - x.sern
  let c := (List.range x.dwidth).foldl (fun c i =>
    c.putPin e (x.obase + i) true (bitAt x.ser (if x.msb then x.wlen - k - x.dwidth + i else k + i))) c
  c.setCch e h { x with sern := x.sern - x.dwidth }

/-- The input side of a step. -/
def stepIn (e h : Nat) (ext : BitVec 9) (c : Chip) : Chip :=
  let x := c.cch e h
  let des := (List.range x.dwidth).foldl (fun (d : Word) i =>
    withField d (if x.msb then x.wlen - x.desn - x.dwidth + i else x.desn + i) 1 (sampleOf c e ext (x.ibase + i)).toNat) x.des
  let n := x.desn + x.dwidth
  if n = x.wlen then
    let w := BitVec.ofNat 36 (des.toNat % 2 ^ x.wlen)
    if x.inq.length < x.depth then c.setCch e h { x with inq := x.inq ++ [w], des := 0, desn := 0 }
    else c.setCch e h { x with des := des, desn := n, held := some w }
  else c.setCch e h { x with des := des, desn := n }

/-- COLLIE_STEP (R363, R365, R366): one step at a grid boundary, with the levels that the pins see from outside at its sample point. A
sample at the middle or the end of the step takes the levels from before the change of the clock pin there (log entry 21). -/
def stepShift (e h : Nat) (ext : BitVec 9) (c : Chip) : Chip :=
  let x := c.cch e h
  match x.run with
  | none => c
  | some r =>
    if x.st ≠ 2 ∨ r.at?.isSome = true then c
    else if x.held.isSome then stallStep e h x c
    else if r.out ∧ x.dwidth ≠ 0 ∧ x.sern = 0 ∧ x.outq = [] then stallStep e h x c
    else
      let x := { x with stalled := false }
      let c := if x.cken then c.putPin e x.ckpin true x.cpol else c
      let c := if r.out && x.dwidth != 0 then stepOut e h x c else c.setCch e h x
      let sample (c : Chip) : Chip := if r.inp && x.dwidth != 0 then stepIn e h ext c else c
      let c := if x.sedge then c else sample c
      let c := if x.cken then c.putPin e x.ckpin true (!x.cpol) else c
      let c := if x.sedge then sample c else c
      let c := if x.cken then c.putPin e x.ckpin true x.cpol else c
      let y : CChan := { c.cch e h with run := some { r with n := r.n - 1 } }
      c.setCch e h (if r.n = 1 ∧ y.held.isNone = true then shiftDone c y else y)

/-! ### Waits, times and events (R370 to R372) -/

/-- The condition of WAITP on the sample `b` (R371). -/
def pinMet (cond : Nat) (prev : Option Bool) (b : Bool) : Bool :=
  match cond with
  | 0 => !b
  | 1 => b
  | 2 => prev == some false && b
  | _ => prev == some true && !b

/-- WAIT_SATISFIED (R371): a sample of the pins for WAITP, or the flag or event that is awaited. -/
def waitSatisfied (e h : Nat) (ext : BitVec 9) (c : Chip) : Chip :=
  let x := c.cch e h
  if x.st ≠ 2 then c
  else match x.wait with
  | some (.pin cond p prev) =>
    let b := sampleOf c e ext p
    if pinMet cond prev b then c.setCch e h { x with wait := none, stampW := edgeTick c }
    else c.setCch e h { x with wait := some (.pin cond p (some b)) }
  | some (.flag f v consume) =>
    if c.cflag e f == v then
      let c := c.setCch e h { x with wait := none }
      if consume then c.setCflag e f false else c
    else c
  | some (.event n consume) =>
    if x.events.getLsbD n then
      c.setCch e h { x with wait := none, events := if consume then x.events &&& ~~~(1#16 <<< n) else x.events }
    else c
  | _ => c

/-- The tick of the first boundary of the step grid at or after an edge (R363, R371). -/
def gridTick (x : CChan) (edge : BitVec 64) : BitVec 64 :=
  let p := 4 * max 1 x.cdiv
  x.grid + BitVec.ofNat 64 (((edge - x.grid).toNat + p - 1) / p * p)

/-- AT_TIME_REACHED (R370): the action stamp is the tick of the edge, or of the grid boundary at which the shift starts (R371). -/
def atReached (e h : Nat) (c : Chip) : Chip :=
  let x := c.cch e h
  match x.wait with
  | some (.atPin t act mask) =>
    if tallyReached c t then pinAct e act mask (c.setCch e h { x with wait := none, stampA := edgeTick c }) else c
  | _ => match x.run with
    | some r => match r.at? with
      | some t => if tallyReached c t then c.setCch e h { x with run := some { r with at? := none }, stampA := gridTick x (edgeTick c) } else c
      | none => c
    | none => c

/-- An event bit is set in a channel. -/
def cEvent (e h : Nat) (bits : BitVec 16) (c : Chip) : Chip :=
  let x := c.cch e h
  c.setCch e h { x with events := x.events ||| bits }

/-- A write of TCMPi. -/
def tcmpWrite (e i : Nat) (v : Word) (c : Chip) : Chip :=
  let c := c.setReg (cStat e) (28 + i) v
  { c with col := { c.col with tcmp := SMap.set (fun _ => false) c.col.tcmp (e * 4 + i) true } }
/-- TCMP_EVENT (R372). -/
def tcmpEvent (e i : Nat) (c : Chip) : Chip :=
  if SMap.get (fun _ => false) c.col.tcmp (e * 4 + i) && tallyReached c (c.reg (cStat e) (28 + i)) then
    let c := { c with col := { c.col with tcmp := SMap.set (fun _ => false) c.col.tcmp (e * 4 + i) false } }
    (List.range 16).foldl (fun c h => cEvent e h (1#16 <<< i) c) c
  else c

/-- DBELL and SYNC (R372). -/
def dbellWrite (e : Nat) (v : Word) (c : Chip) : Chip :=
  cEvent e (fieldOf v 0 4) (BitVec.ofNat 16 (fieldOf v 4 8 * 16)) c
def syncWrite (v : Word) (c : Chip) : Chip :=
  if bitAt v 0 then
    (List.range 8).foldl (fun c e => if colOff c e then c
      else (List.range 16).foldl (fun c h => cEvent e h 0x1000#16 c) c) c
  else c

/-! ### Swaps and stops (R374, R375) -/

/-- What a forced swap and a stop abandon. -/
def abandonShift (x : CChan) : CChan :=
  { x with run := none, queued := none, wait := none, timed := none, ser := 0, des := 0, sern := 0, desn := 0, held := none,
           loop := none, stalled := false, swap := none, regrid := false }

/-- A forced swap: a channel that runs fetches at `pc` in the other half; one that has not started will, and drives no pin yet (R374). -/
def forcedSwap (e h pc : Nat) (c : Chip) : Chip :=
  let x := c.cch e h
  let c := if x.st = 2 then idlePins e h (c.setCch e h { abandonShift x with half := !x.half, pc := pc })
    else c.setCch e h { x with swap := none, redirect := some (!(x.redirect.getD (false, 0)).1, pc) }
  (c.setFlag (cStat e) (48 + h) 12 true).raise (cStat e) 32

def swapWrite (e : Nat) (v : Word) (c : Chip) : Chip :=
  let h := fieldOf v 0 4
  let pc := fieldOf v 4 11
  let force := bitAt v 15
  let x := c.cch e h
  if x.st = 0 ∨ (x.swap.isSome = true ∧ force = false) then c.refuse (cStat e) 19 2
  else if force then forcedSwap e h pc c
  else c.setCch e h { x with swap := some pc }

/-- SWAP_TAKE_EFFECT (R374): at an instruction boundary with the shift unit idle. -/
def swapEffect (e h : Nat) (c : Chip) : Chip :=
  let x := c.cch e h
  match x.swap with
  | some pc =>
    if x.st = 2 ∧ x.wait.isNone = true ∧ x.shiftIdle = true then
      c.setCch e h { x with half := !x.half, pc := pc, loop := none, timed := none, swap := none }
    else c
  | none => c

/-- The next instruction of a channel that a stop ends: that of a pending swap, else PC, else where the entry would start it; 0 while the
entry is unread (log entry 21). -/
def stopPc (x : CChan) : Nat :=
  match x.swap, x.redirect with
  | some pc, _ => pc
  | none, some r => r.2
  | none, none => if x.st = 2 then x.pc % 2048 else if x.st = 5 then x.pstart % 2048 else 0

/-- CHSTOP (R375). -/
def collieStop (e : Nat) (v : Word) (c : Chip) : Chip :=
  ((List.range 16).filter (fun h => bitAt v h && (c.cch e h).st != 0)).foldl (fun c h => endChan e h 0o13 (stopPc (c.cch e h)) c) c

/-- Every channel of an engine ends, and every pin is released (R376). -/
def closeEngine (e : Nat) (c : Chip) : Chip :=
  pins9.foldl (fun c p => c.putPin e p false false) (collieStop e 0xffff c)

/-- An engine reset (R373, R376). -/
def engineReset (e : Nat) (c : Chip) : Chip :=
  let c := (closeEngine e c).resetPages (fun p => p == pgCollie e)
  { c with col := { c.col with
      chans := SMap.drop (fun k => k / 16 == e) c.col.chans
      ps := SMap.drop (fun k => k / 4096 == e) c.col.ps
      tcmp := SMap.drop (fun k => k / 4 == e) c.col.tcmp
      last := SMap.drop (fun k => k == e) c.col.last } }

/-! ### Windows, queues and what the page shows (R361, R362, Table 12-5) -/

/-- A window takes words: the channel is not chained into another's queues. -/
def windowOpen (c : Chip) (e h : Nat) : Bool := !chainedInto c e h
def windowRoom (c : Chip) (e h : Nat) : Nat := (c.cch e h).depth - (c.cch e h).outq.length
def windowAppend (e h : Nat) (ws : List Word) (c : Chip) : Chip :=
  let x := c.cch e h
  resumeStall e h (c.setCch e h { x with outq := x.outq ++ ws })

/-- A read of a window (R361). -/
def windowRead (e h : Nat) (c : Chip) : Word × Chip :=
  if !windowOpen c e h then (0, c)
  else
    let x := c.cch e h
    match x.inq with
    | [] => (0, c.setFlag (cStat e) (48 + h) 15 true)
    | w :: rest => (w, resumeStall e h (c.setCch e h { x with inq := rest }))

/-- QFLUSH: a write of CHCMD. -/
def chcmdWrite (e : Nat) (v : Word) (c : Chip) : Chip :=
  let h := fieldOf v 0 4
  if !bitAt v 16 then c
  else if (c.cch e h).st ≠ 0 then c.refuse (cStat e) 43 2
  else c.setCch e h { c.cch e h with outq := [], inq := [] }

/-- STATE of CHSTAT. -/
def chState (x : CChan) : Nat :=
  if x.st ≠ 2 then x.st
  else match x.wait with
    | some (.pull _) | some (.push _) => 4
    | some _ => 3
    | none => if x.stalled && x.run.isSome then 4 else 2
def collieChstat (c : Chip) (e h : Nat) : Word :=
  let x := c.cch e h
  let w := withField (withField (c.reg (cStat e) (48 + h)) 33 3 (chState x)) 22 6 x.outq.length
  withField (withField (withField w 16 6 x.inq.length) 11 1 (chanHalf c e h).toNat) 0 11
    (if x.st = 1 ∨ x.st = 5 then stopPc x else x.pc % 2048)
def collieBusy (c : Chip) (e : Nat) : Nat := (List.range 16).foldl (fun n h => if (c.cch e h).st ≠ 0 then n + 2 ^ h else n) 0

/-- A write of PINCFGi, after the checks of R53: refused while the old or the new owner is not IDLE; a pin that changes hands
is released. -/
def pincfgWrite (e i : Nat) (v : Word) (c : Chip) : Chip :=
  let old := pinOwner c e i
  let new := fieldOf v 4 5
  let busy (h : Nat) : Bool := decide (h < 16) && (c.cch e h).st != 0
  if busy old || busy new then c.refuse (cStat e) (32 + i) 2
  else
    let c := c.setReg (cStat e) (32 + i) v
    if old = new then c else c.putPin e i false false

end Sys2Proof.Machine
end

