-- ==== Sys2Proof/Machine/Fabric.lean ====
section
/-!
DEFINITION. The rim fabric: tiles, images, cells, lanes, port actions, coprocessor requests (R319 to R353).
-/
namespace Sys2Proof.Machine

def Chip.tile (c : Chip) (t : Nat) : Tile := SMap.get (fun _ => Tile.unconf) c.fab.tiles t
def Chip.setTile (c : Chip) (t : Nat) (x : Tile) : Chip :=
  { c with fab := { c.fab with tiles := SMap.set (fun _ => Tile.unconf) c.fab.tiles t x } }
def Tile.cell (x : Tile) (i : Nat) : Cell := SMap.get (fun _ => Cell.idle) x.cells i
def Tile.setCell (x : Tile) (i : Nat) (y : Cell) : Tile := { x with cells := SMap.set (fun _ => Cell.idle) x.cells i y }
/-- Table 11-6: 0 UNCONF, 1 LOADING, 2 READY, 3 RUN. -/
def Chip.tileState (c : Chip) (t : Nat) : Nat := c.fld (pgTile t) 3 0 2

/-- The nonets of a word, the least significant first (R7). -/
def nonetsOf (w : Word) : List (BitVec 9) := (List.range 4).map (fun i => (w >>> (9 * i)).setWidth 9)
def wordOf (l : List (BitVec 9)) : Word :=
  (l.zipIdx).foldl (fun w x => if x.2 < 4 then w ||| ((x.1.setWidth 36 : Word) <<< (9 * x.2)) else w) 0

/-! ### Coprocessor requests (R340, R344) -/

/-- A reply on its way to core k (Table 10-3, COPR). -/
def copReply (k : Nat) (r : CopReq) (status : Nat) (w : Word) (c : Chip) : Chip :=
  c.fly { opc := 0o12, here := false, cop := none,
          k := { init := k, src := (servingStop (pgTile r.tile)).getD (1, 9), dst := initStop k, tag := r.tag, nonet := true, len := 4, addr := 0,
                 data := nonetsOf w, mask := [], vc := r.vc, status := status, lap := 0, hdr := 0 } }

/-- COP_CURRENT (R344). -/
def copCurrent (t : Nat) (c : Chip) : Chip :=
  let x := c.tile t
  match x.cur, x.waiting with
  | none, r :: rest => c.setTile t { x with cur := some r, waiting := rest }
  | _, _ => c

/-! ### Leaving RUN, loading, committing (R338 to R343) -/

/-- LEAVE_RUN (R340). -/
def leaveRun (t : Nat) (c : Chip) : Chip :=
  if c.tileState t ≠ 3 then c
  else
    let x := c.tile t
    let c := match x.cur with | some (k, r) => copReply k r 5 0 c | none => c
    let c := x.waiting.foldl (fun c q => copReply q.1 q.2 1 0 c) c
    let n := x.sin.length + x.sout.length
    let c := if n = 0 then c else (c.count (pgTile t) 25 n).raise (pgTile t) 6
    c.setFlag (pgTile t) 3 10 false

/-- The tile has no configuration (Table 11-6). -/
def unconfTile (t : Nat) (c : Chip) : Chip := (c.setTile t Tile.unconf).setFld (pgTile t) 3 0 2 0

/-- A write of CTRL that Table 11-7 lists: a load (R339). -/
def tileLoad (t : Nat) (c : Chip) : Chip :=
  let c := unconfTile t (leaveRun t c)
  let c := c.setTile t { Tile.unconf with base := (c.reg (pgTile t) 16).toNat }
  (c.setFld (pgTile t) 3 0 2 1).setFld (pgTile t) 3 2 4 0

/-- UNLOAD (R339, R341): from LOADING with LERR ABORT. -/
def tileUnload (t : Nat) (c : Chip) : Chip :=
  let loading := c.tileState t == 1
  let c := unconfTile t (leaveRun t c)
  if loading then c.setFld (pgTile t) 3 2 4 8 else c

/-- The word of the image, and whether a check failed; the owner port reads it (R341). -/
def imageWord (base i : Nat) (c : Chip) : Word × Bool × Chip := c.bankRead 5 (base + 4 * i) 0 allNonets

/-- Immediate bits and whether a and b are used, by operation (Table 11-3). -/
def cellUses (op imm : Nat) : Nat × Bool × Bool :=
  match op with
  | 0o11 | 0o12 | 0o13 | 0o14 => if imm.testBit 17 then (0x20000, true, true) else (0x3f, true, false)
  | 0o15 => (0x3ffff, false, false)
  | 0o16 => (0x3ffff, true, false)
  | 0o24 => (0x3f, true, true)
  | 0o25 => (0xff, false, false)
  | 0o26 => (0xfff, true, false)
  | 0o27 => (0xfff, true, true)
  | 0o00 | 0o30 => (0, true, false)
  | 0o31 => (7, true, false)
  | _ => (0, true, true)

/-- A cell instruction holds only defined encodings, and its unused fields are zero (R322, R323). -/
def cellInsOk (w : Word) : Bool :=
  let op := fieldOf w 30 6
  let imm := fieldOf w 0 18
  let u := cellUses op imm
  decide (op ≤ 0o31) && fieldOf w 20 3 != 7 && imm &&& (0x3ffff - u.1) == 0 && (u.2.1 || fieldOf w 25 2 == 0) &&
  (u.2.2 || fieldOf w 23 2 == 0) &&
  (match op with
   | 0o24 => decide (imm % 64 ≤ 35)
   | 0o26 | 0o27 => decide (imm % 64 ≤ 35) && decide (imm / 64 ≤ 36)
   | 0o31 => decide (imm ≤ 4)
   | _ => true)

def xbarOk (s : Nat) : Bool := decide (s < 0o240) || s == 0o377
/-- The window of MXC (R330). -/
def mxcOk (xs : Nat) (w : Word) : Bool :=
  fieldOf w 30 6 != 0o25 || (decide (fieldOf w 0 6 ≤ 32) && (decide (xs + 3 < 0o220) || (decide (0o220 ≤ xs) && decide (xs + 3 < 0o240))))
/-- Side 0 is the west, side 1 the east: tile 0 has no west lanes and tile 7 no east lanes (R328). -/
def hasSide (t side : Nat) : Bool := if side = 0 then t != 0 else t != 7

/-- CLK holds no reserved divider or source (R334). -/
def clkOk (w : Word) : Bool :=
  (List.range 4).all (fun r => decide (fieldOf w (9 * r + 2) 5 ≤ 16)) && fieldOf w 0 2 != 2
/-- PPSEL of tile t names what exists (R350). -/
def ppselOk (t : Nat) (w : Word) : Bool :=
  match fieldOf w 33 2 with
  | 0 => decide (fieldOf w 25 8 < 144) && decide (fieldOf w 19 6 < 36)
  | 1 => decide (fieldOf w 25 8 < 16) && decide (fieldOf w 19 6 < 36) && hasSide t (fieldOf w 25 8 / 8)
  | 2 => true
  | _ => false

/-- The first failing check of word i of an image of tile t, given the words before it (Tables 11-8, 11-9). -/
def imageCheck (c : Chip) (t : Nat) (ws : List Word) (i : Nat) (w : Word) : Option Nat :=
  if i < 16 then
    let s := w.toNat
    if 0o27 < s then some 2
    else if (1 ≤ s ∧ s ≤ 8 ∧ hasSide t 0 = false) ∨ (9 ≤ s ∧ s ≤ 16 ∧ hasSide t 1 = false) then some 4 else none
  else if i < 32 then
    let side := (i - 16) / 8
    let gate := fieldOf w 34 2
    let nb := if side = 0 then t - 1 else t + 1
    let other := c.tile nb
    if fieldOf w 0 18 ≠ 0 ∨ gate = 3 then some 2
    else if (gate ≠ 0 ∧ hasSide t side = false) ∨ 143 < fieldOf w 26 8 ∨ 143 < fieldOf w 18 8 then some 4
    else if gate = 1 ∧ hasSide t side = true ∧ 2 ≤ c.tileState nb ∧ (if side = 0 then other.linkE else other.linkW) = true ∧
        fieldOf (other.ldrv.getD ((1 - side) * 8 + (i - 16) % 8) 0) 34 2 = 1 then some 5
    else none
  else if i = 32 then
    if (List.range 4).any (fun r => fieldOf w (9 * r + 7) 2 != 0) then some 2 else if clkOk w then none else some 6
  else if i < 35 then (if fieldOf w 0 17 = 0 ∧ ppselOk t w = true then none else some 2)
  else if i = 35 then (if w.toNat < 4 then none else some 2)
  else if i < 64 then (if w = 0 then none else some 2)
  else
    let j := (i - 64) % 16
    let ir (n : Nat) : Word := ws.getD (i - j + n) 0
    if j < 8 then (if cellInsOk w then none else some 2)
    else if j < 11 then none
    else if j = 11 then
      let len := fieldOf w 0 4
      let ipc := fieldOf w 4 3
      if fieldOf w 8 28 ≠ 0 then some 2
      else if 8 < len ∨ (if len = 0 then ipc ≠ 0 else len ≤ ipc) ∨ (List.range 8).any (fun n => decide (len ≤ n) && ir n != 0) = true
      then some 3 else none
    else if j = 12 then
      let xs := fieldOf w 28 8
      if fieldOf w 0 12 ≠ 0 then some 2
      else if !xbarOk xs || !xbarOk (fieldOf w 20 8) || !xbarOk (fieldOf w 12 8) || (List.range 8).any (fun n => !mxcOk xs (ir n))
      then some 4 else none
    else if w = 0 then none else some 2

/-- The image words in order, up to the first failing check. -/
def readImage (t base : Nat) (c : Chip) : Option Nat × List Word × Chip :=
  (List.range 2368).foldl (fun (x : Option Nat × List Word × Chip) i =>
    match x.1 with
    | some _ => x
    | none =>
      let r := imageWord base i x.2.2
      if r.2.1 then (some 1, x.2.1, r.2.2)
      else (imageCheck c t x.2.1 i r.1, x.2.1 ++ [r.1], r.2.2)) (none, [], c)

/-- The configuration that an accepted image gives, every flip-flop at its initial value (Table 11-8). -/
def tileOf (ws : List Word) (base : Nat) : Tile :=
  let w (i : Nat) : Word := ws.getD i 0
  let cell (k : Nat) : Cell :=
    let b := 64 + 16 * k
    { ir := (List.range 8).map (fun i => w (b + i)), len := fieldOf (w (b + 11)) 0 4, ipc := fieldOf (w (b + 11)) 4 3
      o := w (b + 8), u := w (b + 9), v := w (b + 10), cf := bitAt (w (b + 11)) 7
      xs := fieldOf (w (b + 12)) 28 8, ys := fieldOf (w (b + 12)) 20 8, zs := fieldOf (w (b + 12)) 12 8, pend := none }
  { Tile.unconf with
      cells := SMap.setAll (fun _ => Cell.idle) [] ((List.range 144).map (fun k => (k, cell k)))
      insel := (List.range 16).map (fun i => fieldOf (w i) 0 5)
      ldrv := (List.range 16).map (fun i => w (16 + i))
      clkImg := w 32, ppImg := [w 33, w 34], linkW := bitAt (w 35) 0, linkE := bitAt (w 35) 1, base := base }

/-- TILE_LOAD_DONE (R341). -/
def tileLoadDone (t : Nat) (c : Chip) : Chip :=
  if c.tileState t ≠ 1 ∨ bankOn c 5 = false ∨ bankClearing c 5 = true then c
  else
    let base := (c.tile t).base
    let refuse (code : Nat) (c : Chip) : Chip := ((unconfTile t c).setFld (pgTile t) 3 2 4 code).raise (pgTile t) 2
    if base % 4 ≠ 0 ∨ inBank 5 base 2368 = false then refuse 7 c
    else
      let r := readImage t base c
      match r.1 with
      | some code => refuse code r.2.2
      | none => ((r.2.2.setTile t (tileOf r.2.1 base)).setFld (pgTile t) 3 0 2 2).raise (pgTile t) 1


/-! ### Stream input (R347) -/

def sinRoom (c : Chip) (t : Nat) : Nat := 256 - (c.tile t).sin.length
def sinAppend (t : Nat) (ws : List Word) (c : Chip) : Chip :=
  let x := c.tile t
  c.setTile t { x with sin := x.sin ++ ws }

/-! ### Clock trees (R334 to R337) -/

/-- The clock of tree r, REF25 (true) or TCK, and the length of its cycle in cycles of that clock; nothing when it is stopped. -/
def treeClock (clk : Word) : Nat → Option (Bool × Nat)
  | 0 =>
    let d := fieldOf clk 2 5
    if d = 0 then none else match fieldOf clk 0 2 with | 0 => some (false, d) | 1 => some (true, d) | _ => none
  | r + 1 =>
    let d := fieldOf clk (9 * (r + 1) + 2) 5
    if d = 0 then none
    else match fieldOf clk (9 * (r + 1)) 2 with
      | 0 => some (false, d)
      | 1 => some (true, d)
      | 2 => (treeClock clk r).map (fun x => (x.1, x.2 * d))
      | _ => none

/-- Tree r stands at the start of one of its cycles: so does its source. -/
def treeStarts (clk : Word) (pos : List Nat) : Nat → Bool
  | 0 => pos.getD 0 0 == 0
  | r + 1 => pos.getD (r + 1) 0 == 0 && (fieldOf clk (9 * (r + 1)) 2 != 2 || treeStarts clk pos r)

/-- The trees 0 to `r` when a cycle of TCK or REF25 ends: the cycles of the source counted in the current cycle, and whether it ends (R326). -/
def treeAdvance (clk : Word) (pos : List Nat) (ref : Bool) : Nat → List (Nat × Bool)
  | 0 => [one 0 (fieldOf clk 0 2 == ref.toNat)]
  | r + 1 =>
    let l := treeAdvance clk pos ref r
    let src := fieldOf clk (9 * (r + 1)) 2
    l ++ [one (r + 1) (src == ref.toNat || (src == 2 && (l.getLastD (0, false)).2))]
where
  one (r : Nat) (ends : Bool) : Nat × Bool :=
    let p := pos.getD r 0
    let d := fieldOf clk (9 * r + 2) 5
    if ends && d != 0 then (if d ≤ p + 1 then (0, true) else (p + 1, false)) else (p, false)

/-- TREE_CLOCK_CHANGE (R335): tree r takes the setting of CLK once it is stopped or at the start of a cycle in which no cell has run. -/
def treeClockChange (t r : Nat) (c : Chip) : Chip :=
  let x := c.tile t
  let between := treeStarts x.clk x.pos r && x.cells.all (fun e => e.1 / 36 != r || e.2.pend.isNone)
  if c.tileState t = 3 ∧ r < 4 ∧ (between || (treeClock x.clk r).isNone) = true then
    c.setTile t { x with clk := withField x.clk (9 * r) 9 (c.fld (pgTile t) 19 (9 * r) 9) }
  else c

def Tile.dom (x : Tile) (ref : Bool) : Dom := if ref then x.ref25 else x.tck
def Tile.setDom (x : Tile) (ref : Bool) (d : Dom) : Tile := if ref then { x with ref25 := d } else { x with tck := d }
/-- Tree r runs on REF25 (`ref`) or TCK. -/
def treeOn (clk : Word) (ref : Bool) (r : Nat) : Bool :=
  match treeClock clk r with
  | some (q, _) => q == ref
  | none => false
/-- The running cells of a clock. -/
def Tile.onClock (x : Tile) (ref : Bool) : SMap Cell := x.cells.filter (fun e => e.2.len != 0 && treeOn x.clk ref (e.1 / 36))
/-- The cells that start a cycle in the current cycle of the clock and have not run in it. -/
def Tile.due (x : Tile) (ref : Bool) : List Nat :=
  ((x.onClock ref).filter (fun e => e.2.pend.isNone && treeStarts x.clk x.pos (e.1 / 36))).map (fun e => e.1)

/-- O of cell s as the cells of a clock see it: through the second stage of the synchroniser where it comes from the other clock (R336). -/
def Tile.seen (x : Tile) (ref : Bool) (s : Nat) : Word :=
  match (x.dom ref).s2.find? (fun e => e.1 == s) with
  | some e => e.2
  | none => (x.cell s).o

/-! ### Lanes (R331 to R333) -/

/-- What tile t contributes to lane l, 0 to 7 west and 8 to 15 east, when its driver is enabled. -/
def driveNow (c : Chip) (t l : Nat) : Option Word :=
  let x := c.tile t
  let d := x.ldrv.getD l 0
  if c.tileState t ≠ 3 then none
  else match fieldOf d 34 2 with
    | 1 => some (x.seen false (fieldOf d 26 8))
    | 2 => if bitAt (x.seen false (fieldOf d 18 8)) 0 then some (x.seen false (fieldOf d 26 8)) else none
    | _ => none

/-- The link between tiles t and t + 1 is active (R333). -/
def linkActive (c : Chip) (t : Nat) : Bool :=
  decide (t < 7) && c.tileState t == 3 && c.tileState (t + 1) == 3 && (c.tile t).linkE && (c.tile (t + 1)).linkW &&
  (c.tile t).goId == (c.tile (t + 1)).goId

/-- The tile on a side, with an active link to it. -/
def peer (c : Chip) (t side : Nat) : Option Nat :=
  if side = 0 then (if t != 0 && linkActive c (t - 1) then some (t - 1) else none)
  else (if linkActive c t then some (t + 1) else none)
def peers (c : Chip) (t : Nat) : List (Nat × Nat) := [0, 1].filterMap (fun s => (peer c t s).map (fun q => (s, q)))

/-- The tile may go on: it holds the contributions of its linked tiles (R333). -/
def tileReady (c : Chip) (t : Nat) : Bool := (peers c t).all (fun q => decide ((c.tile t).tck.n ≤ (c.tile q.2).tck.n))

/-- The value of lane l for tile t in its current cycle (R332). -/
def laneValue (c : Chip) (t l : Nat) : Word :=
  let own := (driveNow c t l).getD 0
  match peer c t (l / 8) with
  | none => own
  | some q =>
    let ql := (1 - l / 8) * 8 + l % 8
    let y := c.tile q
    own ||| (if (c.tile t).tck.n < y.tck.n then (y.drive.getD ql none).getD 0 else (driveNow c q ql).getD 0)

/-! ### Tile inputs (R328) -/

def portValue (c : Chip) (t i : Nat) : Word :=
  let x := c.tile t
  let s := x.insel.getD i 0
  let req (f : CopReq → Word) : Word := match x.cur with | some (_, r) => f r | none => 0
  if s = 0 then 0
  else if s ≤ 16 then laneValue c t (s - 1)
  else match s with
    | 0o21 => match x.cur with
      | some (k, r) => withField (withField (withField (withField 0 35 1 1) 31 4 r.num.toNat) 29 2 k) 0 14 r.func.toNat
      | none => 0
    | 0o22 => req (fun r => r.va)
    | 0o23 => req (fun r => r.vb)
    | 0o24 => req (fun r => r.vd)
    | 0o25 => x.sin.headD 0
    | 0o26 => withField (withField 0 35 1 (!x.sin.isEmpty).toNat) 0 9 x.sin.length
    | 0o27 => c.tally.setWidth 36
    | _ => 0

/-- The input ports as the cells of a clock latch them: a REF25 cell takes them through the synchroniser. -/
def portsNow (c : Chip) (t : Nat) (ref : Bool) : List Word :=
  (List.range 16).map (fun i =>
    match (if ref then (c.tile t).ref25.s2.find? (fun e => e.1 == 0o220 + i) else none) with
    | some e => e.2
    | none => portValue c t i)

/-- What the first stage of the synchroniser of a clock takes in, by crossbar code; nothing where all cells run on one clock (R336). -/
def crossing (c : Chip) (t : Nat) (ref : Bool) : List (Nat × Word) :=
  let x := c.tile t
  if (x.onClock true).isEmpty then []
  else (x.onClock !ref).map (fun e => (e.1, e.2.o)) ++ (if ref then (List.range 16).map (fun i => (0o220 + i, portValue c t i)) else [])

/-- The crossbar (R327) of the cells of a clock: ports as latched at the start of the cycle. -/
def xbar (x : Tile) (ref : Bool) (ports : List Word) (s : Nat) : Word :=
  if s < 0o220 then x.seen ref s else if s < 0o240 then ports.getD (s - 0o220) 0 else 0

/-- TILE_COMMIT (R343). -/
def tileCommit (t : Nat) (c : Chip) : Chip :=
  let x := c.tile t
  let c := c.setTile t { x with clk := x.clkImg, tck := Dom.start, ref25 := Dom.start, goId := c.fab.gos }
  let p := pgTile t
  let c := ((c.setReg p 19 x.clkImg).setReg p 20 (x.ppImg.getD 0 0)).setReg p 21 (x.ppImg.getD 1 0)
  (c.setFld p 3 0 2 3).raise p 0

/-- The synchronisers of a committed tile hold the initial values. -/
def tileSync (t : Nat) (c : Chip) : Chip :=
  let d (ref : Bool) : Dom := { Dom.start with s1 := crossing c t ref, s2 := crossing c t ref }
  c.setTile t { c.tile t with tck := d false, ref25 := d true }

/-- TILE_GO (R343): a write of GO in the page of tile t. -/
def tileGo (t : Nat) (v : Word) (c : Chip) : Chip :=
  let named := (List.range 8).filter (fun i => bitAt v i)
  if c.tileState t < 2 ∨ named.isEmpty = true ∨ named.any (fun i => tileOff c i || c.tileState i != 2) = true
  then c.refuse (pgTile t) 17 2
  else
    let c := named.foldl (fun c i => tileCommit i c) { c with fab := { c.fab with gos := c.fab.gos + 1 } }
    named.foldl (fun c i => tileSync i c) c

/-! ### Cell operations (R323, R330) -/

/-- Result and flag; `win` reads the window of MXC. -/
def cellRes (op imm : Nat) (a b y z : Word) (cf : Bool) (win : Nat → Word) : Word × Bool :=
  let n := a.toNat
  let m := b.toNat
  let cnt := if imm.testBit 17 then m else imm % 64
  let nz (v : Word) : Word × Bool := (v, v != 0)
  let sum (q : Nat) (cin : Bool) : Word × Bool :=
    (BitVec.ofNat 36 (n + q + cin.toNat), decide (2 ^ 36 ≤ n + q + cin.toNat))
  let bit (v : Bool) : Word × Bool := (ofBool v, v)
  match op with
  | 0o00 => (a, a == 0)
  | 0o01 => sum m false
  | 0o02 => sum m cf
  | 0o03 => sum (~~~b).toNat true
  | 0o04 => sum (~~~b).toNat cf
  | 0o05 => nz (a &&& b)
  | 0o06 => nz (a ||| b)
  | 0o07 => nz (a ^^^ b)
  | 0o10 => nz (a &&& ~~~b)
  | 0o11 => nz (BitVec.ofNat 36 (shlW 36 n cnt))
  | 0o12 => nz (BitVec.ofNat 36 (shrW false 36 n cnt))
  | 0o13 => nz (BitVec.ofNat 36 (shrW (bitAt a 35) 36 n cnt))
  | 0o14 => nz (BitVec.ofNat 36 (rolW 36 n cnt))
  | 0o15 => (BitVec.ofNat 36 imm, false)
  | 0o16 => (BitVec.ofNat 36 (imm * 2 ^ 18 + n % 2 ^ 18), false)
  | 0o17 => bit (a == b)
  | 0o20 => bit (decide (n < m))
  | 0o21 => bit (decide (a.toInt < b.toInt))
  | 0o22 => (BitVec.ofNat 36 (n * m), decide (2 ^ 36 ≤ n * m))
  | 0o23 => nz (BitVec.ofNat 36 (n * m / 2 ^ 36))
  | 0o24 => nz (if bitAt z (imm % 64) then b else a)
  | 0o25 =>
    let g := fieldOf z (imm % 64 + 2) 2
    (if g = imm / 64 then win (fieldOf z (imm % 64) 2) else y, false)
  | 0o26 => nz (BitVec.ofNat 36 (fieldOf a (imm % 64) (imm / 64)))
  | 0o27 => nz (if imm / 64 = 0 then a else BitVec.ofNat 36 ((withField a (imm % 64) (imm / 64) (m % 2 ^ (imm / 64))).toNat))
  | 0o30 => nz (BitVec.ofNat 36 (popcount a))
  | 0o31 => (a, false)
  | _ => (0, false)

/-- COND of Table 11-2. -/
def cellCond (code : Nat) (cf : Bool) (z : Word) : Bool :=
  match code with
  | 0 => true | 1 => cf | 2 => !cf | 3 => bitAt z 0 | 4 => !bitAt z 0 | 5 => z != 0 | 6 => z == 0 | _ => false

/-- The current instruction of a cell. -/
def Cell.ins (x : Cell) : Word := x.ir.getD x.ipc 0
/-- Operation code of a cell instruction, with the port for PUT. -/
def cellTag (w : Word) : Nat × Nat := (fieldOf w 30 6, if fieldOf w 30 6 = 0o31 then fieldOf w 0 3 else 0)

/-- A cell is about to append to the stream output (R348). -/
def appends (x : Tile) (ref : Bool) (ports : List Word) (y : Cell) : Bool :=
  (cellTag y.ins == (0o31, 2) || cellTag y.ins == (0o31, 4)) && cellCond (fieldOf y.ins 20 3) y.cf (xbar x ref ports y.zs)

/-- The words that the stream output is to take: one for each tree and append port with an append under way or about to start. -/
def appendRoom (x : Tile) (news : List (Nat × Nat)) : Nat :=
  let under := x.cells.filterMap (fun e => (e.2.pend.bind (fun n => n.act)).map (fun a => (e.1 / 36, a.1)))
  (((List.range 4).flatMap (fun r => [(r, 2), (r, 4)])).filter (fun q => under.contains q || news.contains q)).length

/-- At the start of a cycle some cell is about to append and the stream output lacks the room (R348); every append under way counts, so that
none is lost (log entry 14). -/
def tileFrozen (c : Chip) (t : Nat) (ref : Bool) : Bool :=
  let x := c.tile t
  let ports := portsNow c t ref
  let news := ((x.due ref).filter (fun i => appends x ref ports (x.cell i))).map (fun i => (i / 36, (cellTag (x.cell i).ins).2))
  (x.dom ref).ports.isEmpty && !news.isEmpty && decide (256 < x.sout.length + appendRoom x news)

/-- One cell executes its instruction (R324); its writes and its port action wait for the end of its cycle (R325). -/
def cellRun (t i : Nat) (ref : Bool) (c : Chip) : Chip :=
  let x := c.tile t
  let d := x.dom ref
  let d := if d.ports.isEmpty then { d with ports := portsNow c t ref } else d
  let y := x.cell i
  let w := y.ins
  let rd (s : Nat) : Word := xbar x ref d.ports s
  let z := rd y.zs
  let pick (s : Nat) : Word := match s with | 0 => rd y.xs | 1 => rd y.ys | 2 => y.u | _ => y.v
  let a := pick (fieldOf w 25 2)
  let r := cellRes (fieldOf w 30 6) (fieldOf w 0 18) a (pick (fieldOf w 23 2)) (rd y.ys) z y.cf (fun s => rd (y.xs + s))
  let next := if y.ipc + 1 < y.len then y.ipc + 1 else 0
  let p : CellNext :=
    if cellCond (fieldOf w 20 3) y.cf z then
      { o := if bitAt w 29 then r.1 else y.o, u := if bitAt w 28 then r.1 else y.u, v := if bitAt w 27 then r.1 else y.v
        cf := if bitAt w 18 then r.2 else y.cf, ipc := next, act := if fieldOf w 30 6 = 0o31 then some (fieldOf w 0 3, a) else none }
    else { o := y.o, u := y.u, v := y.v, cf := y.cf, ipc := if bitAt w 19 then y.ipc else next, act := none }
  c.setTile t ((x.setCell i { y with pend := some p }).setDom ref d)

/-! ### The end of a cycle -/

/-- One port action (R345, R346, R348). -/
def portAction (t port : Nat) (a : Word) (c : Chip) : Chip :=
  let x := c.tile t
  match port with
  | 0 => match x.cur with
    | some (k, r) => copReply k r 0 a (c.setTile t { x with cur := none })
    | none => c.raise (pgTile t) 4
  | 1 => match x.cur with
    | some (k, r) => copReply k r 5 0 (c.setTile t { x with cur := none })
    | none => c.raise (pgTile t) 4
  | 3 => c.setTile t { x with sin := x.sin.tail }
  | _ => c.setTile t { x with sout := x.sout ++ [a], flushed := x.flushed || port == 4 }

/-- The port actions of the cycles that end together, in the order of the cells: on each port the lowest-numbered cell alone acts (R346). -/
def portActions (t : Nat) (acts : List (Nat × Word)) (c : Chip) : Chip :=
  (List.range 5).foldl (fun c p =>
    match acts.filter (fun e => e.1 == p) with
    | [] => c
    | e :: rest =>
      let c := portAction t p e.2 c
      if rest.isEmpty then c else c.raise (pgTile t) 5) c

/-- Contention on the lanes of the links on which both tiles have ended the cycle (R332). -/
def contention (t : Nat) (c : Chip) : Chip :=
  (peers c t).foldl (fun c q =>
    if (c.tile t).tck.n ≤ (c.tile q.2).tck.n then
      let hits := ((List.range 8).filter (fun l =>
        (driveNow c t (8 * q.1 + l)).isSome && (driveNow c q.2 (8 * (1 - q.1) + l)).isSome)).length
      if hits = 0 then c
      else [t, q.2].foldl (fun c p => (c.count (pgTile p) 24 hits).raise (pgTile p) 3) c
    else c) c

/-- A cell once its cycle has ended. -/
def Cell.done (y : Cell) : Cell :=
  match y.pend with
  | some p => { y with o := p.o, u := p.u, v := p.v, cf := p.cf, ipc := p.ipc, pend := none }
  | none => y

/-- The cycle of a clock of the tile ends, and with it the cycles of its trees that end: writes and port actions take effect
(R325, R345). -/
def endCycle (t : Nat) (ref : Bool) (c : Chip) : Chip :=
  let x := c.tile t
  let d := x.dom ref
  let adv := treeAdvance x.clk x.pos ref 3
  let ends (i : Nat) : Bool := (adv.getD (i / 36) (0, false)).2
  let old := if ref then x.drive else (List.range 16).map (driveNow c t)
  let acts := x.cells.filterMap (fun e => if ends e.1 then e.2.pend.bind (fun n => n.act) else none)
  let cells := x.cells.map (fun e => if ends e.1 then (e.1, e.2.done) else e)
  let x := { x with
    cells := cells.filter (fun e => decide (e.2 ≠ Cell.idle)), drive := old, pos := adv.map Prod.fst,
    lvl := List.zipWith (fun (a : Nat × Bool) v => a.2 != v) adv x.lvl }
  let c := portActions t acts (c.setTile t (x.setDom ref { n := d.n + 1, ports := [], s1 := d.s1, s2 := d.s1 }))
  let x := c.tile t
  let c := c.setTile t (x.setDom ref { x.dom ref with s1 := crossing c t ref })
  if ref then c else contention t c

/-- A tile in RUN that waits neither on a link nor on its stream output, at a boundary of the clock with no cell about to start. -/
def passes (c : Chip) (t : Nat) (ref : Bool) : Bool :=
  c.tileState t == 3 && !c.flag (pgTile t) 3 10 && ((c.tile t).due ref).isEmpty && tileReady c t

/-- TCK cycles in which no cell of a tile starts pass by themselves, where the tile has a cell on TCK or a linked tile is ahead of it. -/
def settle : Nat → Chip → Chip
  | 0, c => c
  | fuel + 1, c =>
    settle fuel ((List.range 8).foldl (fun c t =>
      let behind := (peers c t).any (fun q => decide ((c.tile t).tck.n < (c.tile q.2).tck.n))
      if passes c t false && (!((c.tile t).onClock false).isEmpty || behind) then endCycle t false c else c) c)

/-- REF25 cycles of a tile in which no cell starts pass up to the next start. -/
def settleRef (t : Nat) : Nat → Chip → Chip
  | 0, c => c
  | fuel + 1, c => if passes c t true && !((c.tile t).onClock true).isEmpty then settleRef t fuel (endCycle t true c) else c

/-- One cycle of each clock on which a tile has no running cell (log entry 2). -/
def tileIdle (t : Nat) (c : Chip) : Chip :=
  let free (ref : Bool) (c : Chip) : Bool := passes c t ref && ((c.tile t).onClock ref).isEmpty
  let c := if free false c then endCycle t false c else c
  if free true c then endCycle t true c else c

/-- Every tile's clocks with no command of a cell: one cycle where no cell runs, and the cycles in which none starts. -/
def tilesIdle (c : Chip) : Chip := settle 16 ((List.range 8).foldl (fun c t => tileIdle t c) c)

/-- A cell command (R324): cell i executes its instruction if it is the operation `tag` and its cycle may start. -/
def cellStep (t i : Nat) (tag : Nat × Nat) (c : Chip) : Chip :=
  let c := settle 16 c
  if c.tileState t ≠ 3 ∨ 144 ≤ i then c
  else match treeClock (c.tile t).clk (i / 36) with
    | none => c
    | some (ref, _) =>
      let c := if ref then settleRef t 16 c else c
      let x := c.tile t
      if !(x.due ref).contains i || cellTag (x.cell i).ins != tag || !tileReady c t then c
      else if tileFrozen c t ref then c.setFlag (pgTile t) 3 10 true
      else if c.flag (pgTile t) 3 10 then c
      else
        let c := cellRun t i ref c
        if ((c.tile t).due ref).isEmpty then settle 16 (endCycle t ref c) else c

/-! ### What the page shows (Table 11-11) and the probe pins (R350) -/

def cellVal (c : Chip) (t : Nat) : Word :=
  let y := (c.tile t).cell (c.fld (pgTile t) 22 0 8)
  match c.fld (pgTile t) 22 8 3 with
  | 0 => y.o | 1 => y.u | 2 => y.v | _ => withField (withField 0 4 1 y.cf.toNat) 0 3 y.ipc

def tileStat (c : Chip) (t : Nat) : Word :=
  let w := withField (c.reg (pgTile t) 3) 11 1 (c.tile t).cur.isSome.toNat
  withField w 9 1 (c.tileState t == 3 && !tileReady c t).toNat

/-- The level of PP(2t + i), or nothing at high impedance; the pin of a clock tree toggles with the tree's cycles. -/
def probePin (c : Chip) (t i : Nat) : Option Bool :=
  let w := c.reg (pgTile t) (20 + i)
  let x := c.tile t
  if c.tileState t ≠ 3 ∨ bitAt w 35 = false then none
  else match fieldOf w 33 2 with
    | 0 => some (bitAt (x.cell (fieldOf w 25 8)).o (fieldOf w 19 6))
    | 1 => some (bitAt (laneValue c t (fieldOf w 25 8)) (fieldOf w 19 6))
    | _ => x.lvl[fieldOf w 17 2]?

end Sys2Proof.Machine
end

