-- ==== Sys2Proof/Machine/ArrayOps.lean ====
section
/-!
DEFINITION. Array instructions: encoding, issue checks, and the result of each (R94 to R133, R226).
A routine of the ROM has the result its entry gives; its microwords are not published (R223; log entry 8).
-/
namespace Sys2Proof.Machine

/-- The array opcodes of Table 4-3. -/
inductive AOp where
  | logic | rlog | add | sub | addc | neg | adds | subs | shl | shr | rot | mul | div
  | gadd | gsub | gadds | gneg | gshl | gshr | grot | gmul | gdiv
  | cmp | cmps | gcmp | gcmps | max | min
  | mset | mld | mst | mand | mpush | mpop | melse
  | move | rowb | colb | bcast | gbcast | fma | fcmp
  | bell | count | first | twist | pfence | pres | fadd | fsub | fmul | fdiv
deriving DecidableEq, Repr

namespace AOp
def all : List AOp :=
  [logic, rlog, add, sub, addc, neg, adds, subs, shl, shr, rot, mul, div, gadd, gsub, gadds, gneg, gshl, gshr, grot,
   gmul, gdiv, cmp, cmps, gcmp, gcmps, max, min, mset, mld, mst, mand, mpush, mpop, melse, move, rowb, colb, bcast,
   gbcast, fma, fcmp, bell, count, first, twist, pfence, pres, fadd, fsub, fmul, fdiv]

/-- OP of Table 4-3. -/
def code : AOp → BitVec 9
  | logic => 0o600 | rlog => 0o601 | add => 0o604 | sub => 0o605 | addc => 0o606 | neg => 0o607
  | adds => 0o610 | subs => 0o611 | shl => 0o612 | shr => 0o613 | rot => 0o614 | mul => 0o615 | div => 0o616
  | gadd => 0o620 | gsub => 0o621 | gadds => 0o622 | gneg => 0o623 | gshl => 0o624 | gshr => 0o625 | grot => 0o626
  | gmul => 0o627 | gdiv => 0o630 | cmp => 0o634 | cmps => 0o635 | gcmp => 0o636 | gcmps => 0o637
  | max => 0o640 | min => 0o641 | mset => 0o644 | mld => 0o645 | mst => 0o646 | mand => 0o647 | mpush => 0o650
  | mpop => 0o651 | melse => 0o652 | move => 0o654 | rowb => 0o655 | colb => 0o656 | bcast => 0o657 | gbcast => 0o660
  | fma => 0o661 | fcmp => 0o662 | bell => 0o664 | count => 0o665 | first => 0o666 | twist => 0o670
  | pfence => 0o671 | pres => 0o672 | fadd => 0o674 | fsub => 0o675 | fmul => 0o676 | fdiv => 0o677

def ofCode (x : BitVec 9) : Option AOp := all.find? (fun o => o.code == x)

/-- Unit instructions: n is 0 or 1 (Table 4-3). -/
def isUnit : AOp → Bool
  | mset | mld | mst | mand | mpush | mpop | melse | bell | count | first | pfence | pres => true
  | _ => false
def isFloat : AOp → Bool
  | fadd | fsub | fmul | fdiv | fma | fcmp => true
  | _ => false
/-- Instructions marked s (R97). -/
def takesS : AOp → Bool
  | adds | subs | shl | shr | rot | gadds | gshl | gshr | grot | cmps | gcmps | rowb | colb | bcast | gbcast | pres => true
  | _ => false
/-- Those whose operand grows with n (R97). -/
def wideS : AOp → Bool
  | adds | subs | cmps | bcast => true
  | _ => false
/-- The modifier bits that Table 4-2 gives the instruction. -/
def modMask : AOp → BitVec 12
  | logic => 0x3ff
  | add | sub | addc | neg => 0xc00
  | adds | subs => 0xe00
  | shr | mul | div | gshr | gmul | gdiv | max | min => 0x200
  | gadd | gsub | gneg => 0xd00
  | gadds => 0xf00
  | cmp | cmps | gcmp | gcmps => 0xfc0
  | fadd | fsub | fmul | fdiv | fma => 0xdc0
  | fcmp => 0xdc0
  | move => 0x007
  | bell | count | first => 0x001
  | twist => 0x003
  | _ => 0
end AOp

/-- The fields of an array instruction (Table 4-1). -/
structure AFields where
  n : BitVec 12
  d : BitVec 13
  a : BitVec 13
  b : BitVec 13
  md : BitVec 12
deriving DecidableEq, Repr

/-- Head and tail words (Table 4-1). -/
def AFields.head (op : BitVec 9) (x : AFields) : Word := op ++ x.n ++ x.d ++ x.md.extractLsb' 10 2
def AFields.tail (x : AFields) : Word := x.a ++ x.b ++ x.md.setWidth 10
def headOp (h : Word) : BitVec 9 := h.extractLsb' 27 9
def fieldsOf (h t : Word) : AFields :=
  { n := h.extractLsb' 15 12, d := h.extractLsb' 2 13, a := t.extractLsb' 23 13, b := t.extractLsb' 10 13,
    md := h.setWidth 2 ++ t.setWidth 10 }

namespace AFields
def len (x : AFields) : Nat := x.n.toNat
def fl (x : AFields) : Nat := (x.md.extractLsb' 10 2).toNat
def sgn (x : AFields) : Bool := x.md.getLsbD 9
def link (x : AFields) : Bool := x.md.getLsbD 8
def rel (x : AFields) : Nat := (x.md.extractLsb' 6 3).toNat
def tt (x : AFields) : BitVec 8 := x.md.setWidth 8
def rsrc (x : AFields) : Nat := (x.md.extractLsb' 8 2).toNat
end AFields

/-! ### Ranges (Table 4-3, R101, R102, R106) -/

/-- Source ranges and destination ranges as (first plane, length) for a length that is not zero. -/
def ranges (op : AOp) (x : AFields) : List (Nat × Nat) × List (Nat × Nat) :=
  let n := x.len
  let a := (x.a.toNat, n)
  let b := (x.b.toNat, n)
  let d := (x.d.toNat, n)
  let d2 := (x.d.toNat, 2 * n)
  match op with
  | .logic | .add | .sub | .addc | .gadd | .gsub | .fadd | .fsub | .fmul | .fdiv => ([a, b], [d])
  | .fma => ([a, b, d], [d])
  | .neg | .adds | .subs | .shl | .shr | .rot | .gadds | .gneg | .gshl | .gshr | .grot
  | .move | .rowb | .colb => ([a], [d])
  | .mul | .div | .gmul | .gdiv => ([a, b], [d2])
  | .cmp | .gcmp | .fcmp => ([a, b], [])
  | .cmps | .gcmps | .max | .min => ([a], [])
  | .mld => ([(x.a.toNat, 1)], [])
  | .mst => ([], [(x.d.toNat, 1)])
  | .bcast | .gbcast => ([], [d])
  | .twist => if x.md.getLsbD 0 then ([(x.a.toNat, 36)], [d]) else ([a], [(x.d.toNat, 36)])
  | .pfence => ([(x.a.toNat, x.b.toNat + 1 - x.a.toNat)], [])
  | _ => ([], [])

/-- Which of A, B and D hold plane addresses. -/
def planeFields (op : AOp) : Bool × Bool × Bool :=
  match op with
  | .logic | .add | .sub | .addc | .gadd | .gsub | .fadd | .fsub | .fmul | .fdiv | .fma
  | .mul | .div | .gmul | .gdiv => (true, true, true)
  | .neg | .adds | .subs | .shl | .shr | .rot | .gadds | .gneg | .gshl | .gshr | .grot
  | .move | .rowb | .colb | .twist => (true, false, true)
  | .cmp | .gcmp | .fcmp | .pfence => (true, true, false)
  | .cmps | .gcmps | .max | .min | .mld => (true, false, false)
  | .mst | .bcast | .gbcast => (false, false, true)
  | _ => (false, false, false)

/-- R102: identical or disjoint. -/
def rangesFit (r s : Nat × Nat) : Bool :=
  r == s || decide (r.1 + r.2 ≤ s.1) || decide (s.1 + s.2 ≤ r.1)
def rangesApart (r s : Nat × Nat) : Bool := decide (r.1 + r.2 ≤ s.1) || decide (s.1 + s.2 ≤ r.1)

/-- Selector fields of RLOG, PFENCE and PRES hold only defined values (R101, R108, R109, R112). -/
def selectorsOk (op : AOp) (x : AFields) (s : Double) : Bool :=
  match op with
  | .rlog =>
    let q (i : Nat) : Nat := (x.b.extractLsb' i 4).toNat
    let gd := (x.d.setWidth 3).toNat
    decide (x.a.toNat < 256) && decide (2 ≤ q 0) && decide (2 ≤ q 4) && decide (2 ≤ q 8) && !x.b.getLsbD 12 &&
    decide (2 ≤ gd ∧ gd ≤ 5) && decide ((x.d.extractLsb' 6 6).toNat ≤ 35) && !x.d.getLsbD 12
  | .pfence => decide (x.a.toNat ≤ x.b.toNat)
  | .pres => decide ((s.extractLsb' 4 4).toNat ≤ 8)
  | _ => true

/-- The checks of R101 and R102, given the captured operand; the odd register of a pair is among them (R97). -/
def issueLegal (op : AOp) (x : AFields) (s : Double) : Bool :=
  let n := x.len
  let pf := planeFields op
  let user (v : BitVec 13) : Bool := decide (v.toNat < userPlanes)
  let rs := ranges op x
  let modOk := (x.md &&& ~~~op.modMask) == 0
  let encOk := match op with
    | .cmp | .cmps | .gcmp | .gcmps => x.fl != 3 && decide (x.rel ≤ 5)
    | .fcmp => x.fl != 3 && decide (x.rel ≤ 6)
    | .fadd | .fsub | .fmul | .fdiv | .fma => decide (x.rel ≤ 4)
    | _ => true
  let nOk := if op.isUnit then decide (n ≤ 1) else if op.isFloat then n == 0 || n == 32 || n == 64
    else if op == .twist then decide (n ≤ 36) else true
  let fieldOk (used : Bool) (v : BitVec 13) : Bool := if used then user v else v == 0
  let bOk := if op.takesS then (x.b.extractLsb' 5 8) == 0 && !(op.wideS && decide (36 < n) && x.b.getLsbD 0)
    else if op == .rlog then true else fieldOk pf.2.1 x.b
  let aOk := if op == .rlog then true else fieldOk pf.1 x.a
  let dOk := if op == .rlog then true else fieldOk pf.2.2 x.d
  let fitOk := n == 0 ||
    ((rs.1 ++ rs.2).all (fun r => decide (r.1 + r.2 ≤ userPlanes)) &&
     rs.2.all (fun d => rs.1.all (fun s =>
       match op with
       | .mul | .div | .gmul | .gdiv | .twist => rangesApart d s
       | _ => rangesFit d s)))
  modOk && encOk && nOk && aOk && bOk && dOk && fitOk && selectorsOk op x s

/-- The operand captured at issue (R97). -/
def captureS (c : Chip) (k : Nat) (op : AOp) (x : AFields) : Double :=
  if op.takesS then
    let r := x.b.setWidth 5
    if op.wideS && decide (36 < x.len) then c.pair k r else (c.w k r).setWidth 72
  else 0

/-- The operand extended to `n` bits (R97). -/
def extS (op : AOp) (x : AFields) (s : Double) (n : Nat) : Nat :=
  if n ≤ 72 then s.toNat % 2 ^ n
  else if op != .bcast && x.sgn && s.getLsbD 71 then s.toNat + (2 ^ n - 2 ^ 72) else s.toNat

/-- Beats of a ROM routine (Tables 4-3, 4-5, 4-6), with `w` fold columns. -/
def beatsOf (op : AOp) (x : AFields) (w q : Nat) : Nat :=
  let n := x.len
  let flS := match x.fl with | 1 => 2 | 2 => 1 | _ => 0
  let flG := match x.fl with | 1 => 4 | 2 => 3 | 3 => 3 | _ => 0
  let comb := if x.fl = 0 then 0 else 1
  let wide := decide (n = 64)
  match op with
  | .logic | .rlog | .shl | .shr | .rot | .bcast | .gbcast => n
  | .add | .sub | .neg | .adds | .subs => n + 1 + flS
  | .addc => n + flS
  | .mul => n * n + 2 * n
  | .div => n * n + 3 * n + 1
  | .gadd | .gsub | .gadds | .gneg => n + flG
  | .gshl | .gshr | .grot => n * (2 + 2 * q) + 2
  | .gmul => 76 * n
  | .gdiv => 112 * n + 1
  | .cmp | .cmps => n + 1 + comb
  | .gcmp | .gcmps => 2 * n + 4 + comb
  | .max | .min => 2 * n + 1
  | .mst => 3
  | .mpush => 5
  | .move => 2 * n
  | .rowb => n * (w + 1)
  | .colb => 59 * n
  | .fadd | .fsub => (if wide then 190 else 96) + comb
  | .fmul => (if wide then 3020 else 740) + comb
  | .fdiv => (if wide then 3400 else 900) + comb
  | .fma => (if wide then 3300 else 860) + comb
  | .fcmp => (if wide then 68 else 36) + comb
  | .twist => 72 * n + 2
  | _ => 1

/-! ### Results by lamb row -/

/-- What a routine does to one lamb row: plane writes in order (plane, data, enables), the registers, the flags raised, and
whether some lamb of the row with M = 1 divided by zero. -/
structure RowRes where
  writes : List (Nat × Word × Word)
  regs : LambRow
  fl : FFlags := {}
  dz : Bool := false
deriving DecidableEq, Repr

/-- The data of a plane in the row at fold column `p`, flock row `r`. -/
def planeRow (c : Chip) (cols : Cols) (p r plane : Nat) : Word :=
  let dc := cols.getD (p % cols.length) (0, 0)
  sliceData (c.slice (colFold dc (r % 864)) plane (r % 36))

/-- field(X) of local column `j`, from the planes' rows (R97). -/
def fieldBits (rows : List Word) (j : Nat) : Nat := rows.foldr (fun w acc => 2 * acc + (bitAt w j).toNat) 0
/-- The rows of planes X to X + n − 1 from the values of the 36 lambs. -/
def rowsOf (n : Nat) (v : Nat → Nat) : List Word :=
  (List.range n).map (fun b => (List.range 36).foldl (fun w j =>
    if (v j).testBit b then w ||| BitVec.ofNat 36 (2 ^ j) else w) 0)
/-- A row of one bit per lamb. -/
def bitRow (v : Nat → Bool) : Word :=
  (List.range 36).foldl (fun w j => if v j then w ||| BitVec.ofNat 36 (2 ^ j) else w) 0

/-- One lamb's share of a serial instruction: its destination value and its new C and F. -/
structure LambRes where
  d : Nat
  c : Bool
  f : Bool
  fl : FFlags := {}
  dz : Bool := false
deriving DecidableEq, Repr

/-- The flag of Table 4-5 for a sum of width `w`. -/
def intFlag (fl : Nat) (old : Bool) (w : Nat) (r : IntRes) : Bool :=
  match fl with | 1 => r.v | 2 => r.c | 3 => r.res.testBit (w - 1) | _ => old

/-- x, y and cin of Table 4-4, at width `w`. -/
def addTerms (op : AOp) (w a b s : Nat) (cy : Bool) : Nat × Nat × Bool :=
  match op with
  | .sub | .gsub => (a, notW w b, true)
  | .addc => (a, b, cy)
  | .neg | .gneg => (0, notW w a, true)
  | .adds | .gadds => (a, s, false)
  | .subs => (a, notW w s, true)
  | _ => (a, b, false)

/-- COMB of Table 4-2. -/
def combine (comb : Nat) (f r : Bool) : Bool := match comb with | 1 => f && r | 2 => f || r | _ => r

/-- The rounding mode of a floating-point array instruction (R149). -/
def arrayRm (x : AFields) (rm : BitVec 2) : Nat := if x.rel = 4 then rm.toNat else x.rel

/-- The flag of Table 4-7. -/
def floatFlag (fl : Nat) (old : Bool) (f : Fmt) (r : FRes) : Bool :=
  match fl with | 1 => r.fl.nv | 2 => r.fl.any | 3 => isNaN f r.bits | _ => old

/-- A serial instruction in one lamb (R113 to R116, R121, R122, R129): fields a, b, d, operand s, old C and F. -/
def serialLamb (op : AOp) (x : AFields) (rm : BitVec 2) (s a b d : Nat) (sFull : Nat) (cy f : Bool) : LambRes :=
  let n := x.len
  let fm := if n = 64 then fmt64 else fmt32
  let arith :=
    let t := addTerms op n a b s cy
    let r := addWith n t.1 t.2.1 t.2.2
    ({ d := r.res, c := r.c, f := intFlag x.fl f n r } : LambRes)
  let flt (r : FRes) : LambRes := { d := r.bits, c := cy, f := floatFlag x.fl f fm r, fl := r.fl }
  match op with
  | .add | .sub | .addc | .neg | .adds | .subs => arith
  | .shl => { d := shlW n a sFull, c := cy, f := f }
  | .shr => { d := shrW (x.sgn && a.testBit (n - 1)) n a sFull, c := cy, f := f }
  | .rot => { d := rolW n a sFull, c := cy, f := f }
  | .mul => { d := mulFull x.sgn n a b, c := false, f := f }
  | .div =>
    let r := arrayDiv x.sgn n a b
    { d := r.1 + (r.2.1 <<< n), c := r.2.2.2, f := r.2.2.1, dz := r.2.2.1 }
  | .cmp | .cmps =>
    let y := if op == .cmp then b else s
    let r := relHolds x.rel (readInt x.sgn n a) (readInt x.sgn n y)
    { d := 0, c := r, f := combine x.fl f r }
  | .bcast => { d := s, c := cy, f := f }
  | .fadd => flt (fAdd fm (arrayRm x rm) a b false)
  | .fsub => flt (fAdd fm (arrayRm x rm) a b true)
  | .fmul => flt (fMul fm (arrayRm x rm) a b)
  | .fdiv => flt (fDiv fm (arrayRm x rm) a b)
  | .fma => flt (fFma fm (arrayRm x rm) a b d)
  | .fcmp =>
    let r := fCmp fm x.rel a b
    { d := 0, c := cy, f := combine x.fl f r.1, fl := r.2 }
  | _ => { d := 0, c := cy, f := f }

/-- Planes of the destination of a serial instruction. -/
def destLen (op : AOp) (n : Nat) : Nat :=
  match op with
  | .mul | .div | .gmul | .gdiv => 2 * n
  | .cmp | .cmps | .fcmp | .gcmp | .gcmps | .max | .min => 0
  | _ => n

/-- A serial instruction in one row. -/
def serialRow (c : Chip) (cols : Cols) (op : AOp) (x : AFields) (it : QItem) (p r : Nat) : RowRes :=
  let me := c.flockRow cols p r
  let n := x.len
  let rows (a : BitVec 13) : List Word := (List.range n).map (fun b => planeRow c cols p r (a.toNat + b))
  let ra := rows x.a
  let rb := if (planeFields op).2.1 then rows x.b else []
  let rd := if op == .fma then rows x.d else []
  let res (j : Nat) : LambRes :=
    serialLamb op x it.rm (extS op x it.sop n) (fieldBits ra j) (fieldBits rb j) (fieldBits rd j) it.sop.toNat
      (bitAt me.c j) (bitAt me.f j)
  let all := (List.range 36).map res
  let at' (j : Nat) : LambRes := all.getD j ⟨0, false, false, {}, false⟩
  let live := (List.range 36).filter (fun j => bitAt me.m j)
  { writes := ((rowsOf (destLen op n) (fun j => (at' j).d)).zipIdx).map (fun w => (x.d.toNat + w.2, w.1, me.m))
    regs := { me with c := wr me.c (bitRow (fun j => (at' j).c)) me.m, f := wr me.f (bitRow (fun j => (at' j).f)) me.m }
    fl := live.foldl (fun fl j => fl.or (at' j).fl) {}
    dz := live.any (fun j => (at' j).dz) }

/-- The word of a linked scalar operand at word `k` (R118). -/
def gangS (x : AFields) (s : Nat) (k : Nat) : Nat :=
  if k = 0 || !x.link then s % 2 ^ 36 else if x.sgn && s.testBit 35 then 2 ^ 36 - 1 else 0

/-- Carries out of each bit of `x + y + c` (R118). -/
def carryRow (x y : Nat) (cin : Bool) : Word :=
  bitRow (fun j => decide (2 ^ (j + 1) ≤ x % 2 ^ (j + 1) + y % 2 ^ (j + 1) + cin.toNat))

/-- GADD, GSUB, GADDS and GNEG in one gang (R118). -/
def gangAdd (c : Chip) (cols : Cols) (op : AOp) (x : AFields) (it : QItem) (p r : Nat) : RowRes :=
  let me := c.flockRow cols p r
  let n := x.len
  let word (a : BitVec 13) (k : Nat) : Nat := (planeRow c cols p r (a.toNat + k)).toNat
  let s := it.sop.toNat % 2 ^ 36
  let xa (k : Nat) : Nat := if op == .gneg then 0 else word x.a k
  let yb (k : Nat) : Nat := match op with
    | .gsub => notW 36 (word x.b k)
    | .gneg => notW 36 (word x.a k)
    | .gadds => gangS x s k
    | _ => word x.b k
  let cin := op == .gsub || op == .gneg
  let run := (List.range n).foldl (fun (acc : List (Nat × Word × Word) × Word × Bool) k =>
    let ci := if x.link && k != 0 then acc.2.2 else cin
    let sum := BitVec.ofNat 36 (xa k + yb k + ci.toNat)
    let cy := wr acc.2.1 (carryRow (xa k) (yb k) ci) me.m
    (acc.1 ++ [(x.d.toNat + k, sum, me.m)], cy, bitAt cy 35)) ([], me.c, false)
  let big (f : Nat → Nat) : Nat := (List.range n).foldl (fun t k => t + f k <<< (36 * k)) 0
  let full := if x.link then addWith (36 * n) (big xa) (big yb) cin else addWith 36 (xa (n - 1)) (yb (n - 1)) cin
  let w := if x.link then 36 * n else 36
  let f := if x.fl = 0 then me.f else wr me.f (fill (intFlag x.fl false w full)) me.m
  { writes := run.1, regs := { me with c := run.2.1, f := f } }

/-- The other gang arithmetic in one gang: shifts, products and quotients (R119, R120). -/
def gangWord (c : Chip) (cols : Cols) (op : AOp) (x : AFields) (it : QItem) (p r : Nat) : RowRes :=
  let me := c.flockRow cols p r
  let n := x.len
  let word (a : BitVec 13) (k : Nat) : Nat := (planeRow c cols p r (a.toNat + k)).toNat
  let s := it.sop.toNat % 2 ^ 36
  let put (k v : Nat) : Nat × Word × Word := (x.d.toNat + k, BitVec.ofNat 36 v, me.m)
  match op with
  | .gshl => { writes := (List.range n).map (fun k => put k (shlW 36 (word x.a k) s)), regs := me }
  | .gshr => { writes := (List.range n).map (fun k =>
      put k (shrW (x.sgn && (word x.a k).testBit 35) 36 (word x.a k) s)), regs := me }
  | .grot => { writes := (List.range n).map (fun k => put k (rolW 36 (word x.a k) s)), regs := me }
  | .gmul =>
    { writes := (List.range n).flatMap (fun k =>
        let m := mulFull x.sgn 36 (word x.a k) (word x.b k)
        [put (2 * k) m, put (2 * k + 1) (m >>> 36)]),
      regs := { me with c := wr me.c 0 me.m } }
  | _ =>
    let q (k : Nat) := arrayDiv x.sgn 36 (word x.a k) (word x.b k)
    let dz := (List.range n).any (fun k => (q k).2.2.1)
    let v := (List.range n).any (fun k => (q k).2.2.2)
    { writes := (List.range n).flatMap (fun k => [put (2 * k) (q k).1, put (2 * k + 1) (q k).2.1]),
      regs := { me with f := wr me.f (fill dz) me.m, c := wr me.c (fill v) me.m }
      dz := dz && me.m != 0 }

/-- GCMP and GCMPS in one gang (R123). -/
def gangCmp (c : Chip) (cols : Cols) (op : AOp) (x : AFields) (it : QItem) (p r : Nat) : RowRes :=
  let me := c.flockRow cols p r
  let n := x.len
  let word (a : BitVec 13) (k : Nat) : Nat := (planeRow c cols p r (a.toNat + k)).toNat
  let s := it.sop.toNat % 2 ^ 36
  let one (k : Nat) : Bool := relHolds x.rel (readInt x.sgn 36 (word x.a k)) (readInt x.sgn 36 s)
  let rel := match op with
    | .gcmp =>
      let big (a : BitVec 13) : Nat := (List.range n).foldl (fun t k => t + word a k <<< (36 * k)) 0
      relHolds x.rel (readInt x.sgn (36 * n) (big x.a)) (readInt x.sgn (36 * n) (big x.b))
    | _ => match x.rel with
      | 0 => (List.range n).all one
      | 1 => (List.range n).any one
      | _ => one (n - 1)
  { writes := [], regs := { me with f := wr me.f (bitRow (fun j => combine x.fl (bitAt me.f j) rel)) me.m } }

/-- LOGIC in one row (R111). -/
def logicRow (c : Chip) (cols : Cols) (x : AFields) (p r : Nat) : RowRes :=
  let me := c.flockRow cols p r
  let rv := match x.rsrc with | 0 => 0 | 1 => me.f | 2 => me.t | _ => BitVec.allOnes 36
  { writes := (List.range x.len).map (fun k =>
      (x.d.toNat + k, lut x.tt (planeRow c cols p r (x.a.toNat + k)) (planeRow c cols p r (x.b.toNat + k)) rv, me.m)),
    regs := me }

/-- The lamb that SRC of MOVE names, as a row of plane data (R127). -/
def moveRow (c : Chip) (cols : Cols) (src p r plane : Nat) : Word :=
  let w := cols.length
  match src with
  | 0 => planeRow c cols p (r + 863) plane
  | 1 => (planeRow c cols p r plane >>> 1) ||| (planeRow c cols (p + 1) r plane <<< 35)
  | 2 => (planeRow c cols p r plane <<< 1) ||| (planeRow c cols (p + w - 1) r plane >>> 35)
  | 3 => planeRow c cols p (r + 1) plane
  | 4 => planeRow c cols p (r + 864 - 36) plane
  | 5 => planeRow c cols (p + 1) r plane
  | 6 => planeRow c cols (p + w - 1) r plane
  | _ => planeRow c cols p (r + 36) plane

/-- MOVE, ROWB, COLB and GBCAST in one row (R127 to R129). -/
def spreadRow (c : Chip) (cols : Cols) (op : AOp) (x : AFields) (it : QItem) (p r : Nat) : RowRes :=
  let me := c.flockRow cols p r
  let n := x.len
  let s := it.sop.toNat % 2 ^ 36
  let col := s % (36 * cols.length)
  let src (plane : Nat) : Word := match op with
    | .move => moveRow c cols (x.md.toNat % 8) p r plane
    | .rowb => fill (bitAt (planeRow c cols (col / 36) r plane) (col % 36))
    | _ => planeRow c cols p (s % 864) plane
  match op with
  | .gbcast => { writes := (List.range n).map (fun k => (x.d.toNat + k, BitVec.ofNat 36 s, me.m)), regs := me }
  | _ =>
    let last := x.a.toNat + n - 1
    { writes := (List.range n).map (fun k => (x.d.toNat + k, src (x.a.toNat + k), me.m))
      regs := { me with x := if op == .move then planeRow c cols p r last else src last } }

/-- TWIST in one gang (R133). -/
def twistRow (c : Chip) (cols : Cols) (x : AFields) (p r : Nat) : RowRes :=
  let me := c.flockRow cols p r
  let n := x.len
  let a (k : Nat) : Word := planeRow c cols p r (x.a.toNat + k)
  if x.md.getLsbD 0 then
    { writes := (List.range n).map (fun b => (x.d.toNat + b, bitRow (fun j => bitAt (a j) b), me.m)), regs := me }
  else
    { writes := (List.range 36).map (fun j => (x.d.toNat + j, bitRow (fun b =>
        if b < n then bitAt (a b) j else x.md.getLsbD 1 && bitAt (a (n - 1)) j), me.m)), regs := me }

/-- The result of an instruction in the row at fold column `p`, flock row `r`, for the instructions whose rows do not wait
for the whole flock. -/
def rowResult (c : Chip) (cols : Cols) (op : AOp) (x : AFields) (it : QItem) (p r : Nat) : RowRes :=
  match op with
  | .logic => logicRow c cols x p r
  | .gadd | .gsub | .gadds | .gneg => gangAdd c cols op x it p r
  | .gshl | .gshr | .grot | .gmul | .gdiv => gangWord c cols op x it p r
  | .gcmp | .gcmps => gangCmp c cols op x it p r
  | .move | .rowb | .colb | .gbcast => spreadRow c cols op x it p r
  | .twist => twistRow c cols x p r
  | _ => serialRow c cols op x it p r

/-! ### A routine over the flock -/

/-- What a routine gives the rest of the machine. -/
structure RoutRes where
  fl : FFlags := {}
  dz : Bool := false
  /-- folds with failed checks -/
  bad : List Nat := []
deriving DecidableEq, Repr

/-- The failed reads of the source ranges in one fold; which of RDA and RDB reads an operand is not specified (R92). DESIGN CHOICE (log
entry 8): the log captures all failed RDA reads of a ROM instruction before its RDB reads, plane by plane, and each source plane is
checked and counted once, because the beats of ROM routines are not published. -/
def sourceErrs (c : Chip) (op : AOp) (x : AFields) (f : Nat) : List PErr :=
  let rs := ((ranges op x).1.zipIdx).flatMap (fun r =>
    (List.range r.1.2).flatMap (fun i =>
      readErrs c f (r.1.1 + i) (if Config.romReadIsB op.code.toNat r.2 then 1 else 0)))
  rs.filter (fun e => e.src == 0) ++ rs.filter (fun e => e.src == 1)

/-- Every row takes its result: reads see the state before the instruction (R102), planes are written in order. DESIGN CHOICE (log
entry 8): an armed PINJ acts on the first destination plane that is written (R93), and on no working plane, because the working
planes that a ROM routine writes are not published. -/
def routine (cols : Cols) (op : AOp) (x : AFields) (it : QItem) (c0 : Chip) : RoutRes × Chip :=
  (cols.zipIdx).foldl (fun acc pc =>
    (List.range 24).foldl (fun (acc : RoutRes × Chip) y =>
      let f := foldIx pc.1.1 pc.1.2 y
      let outs := (List.range 36).map (fun i => (i, rowResult c0 cols op x it pc.2 (36 * y + i)))
      let rd := sourceErrs c0 op x f
      let nplanes := (outs.head?.map (fun o => o.2.writes.length)).getD 0
      let w := (List.range nplanes).foldl (fun (a : List PErr × Chip) k =>
        let plane := (outs.head?.bind (fun o => o.2.writes[k]?)).elim 0 (fun t => t.1)
        let r := writePlane f plane (outs.map (fun o =>
          let t := o.2.writes.getD k (0, 0, 0)
          (o.1, t.2.1, t.2.2))) a.2
        (a.1 ++ r.1, r.2)) ([], acc.2)
      let c := outs.foldl (fun c o => c.setLamb f o.1 o.2.regs) w.2
      let errs := rd ++ w.1
      ({ fl := outs.foldl (fun fl o => fl.or o.2.fl) acc.1.fl
         dz := acc.1.dz || outs.any (fun o => o.2.dz)
         bad := if errs.isEmpty then acc.1.bad else acc.1.bad ++ [f] }, foldErrors f errs c)) acc) ({}, c0)

/-- Beats given in Table 3-5 form, in order, the same word to every die (Tables 4-9 and 4-10). -/
def beats (cols : Cols) (ws : List BeatWord) (c : Chip) : RoutRes × Chip :=
  ws.foldl (fun x w =>
    let r := beat cols (fun _ => w) x.2
    ({ x.1 with bad := x.1.bad ++ r.1 }, r.2)) ({}, c)

/-- A beat with one immediate bit, or one source, written to one destination. -/
def simpleBeat (wa : Nat) (psel : BitVec 4) (imm : Bool) (gdst : BitVec 3) (all : Bool) : BeatWord :=
  BeatWord.mk 0 0 (BitVec.ofNat 13 wa) psel 15 15 0o360 0 gdst false all false 0 0 0 false false (if imm then 1 else 0)
def readBeat (ra rb wa : Nat) (qsel : BitVec 4) (g : BitVec 8) (gdst : BitVec 3) : BeatWord :=
  BeatWord.mk (BitVec.ofNat 13 ra) (BitVec.ofNat 13 rb) (BitVec.ofNat 13 wa) 0 qsel 15 g 0 gdst false true false
    0 0 0 false false 0

/-- The beats of the mask instructions at stack depth `d` (R125, R126, Tables 4-9, 4-10). -/
def maskBeats (op : AOp) (x : AFields) (d : Nat) : List BeatWord :=
  let so := maskPlane d
  let top := maskPlane (d - 1)
  match op with
  | .mset => [simpleBeat 0 15 true 5 true]
  | .mld => [readBeat x.a.toNat 0 0 15 0o360 5]
  | .mst => [simpleBeat 4464 15 false 1 true, simpleBeat 4464 15 true 1 false, readBeat 4464 0 x.d.toNat 15 0o360 1]
  | .mand => [simpleBeat 0 3 false 5 false]
  | .mpush => [simpleBeat so 15 false 1 true, simpleBeat (so + 1) 15 false 1 true, simpleBeat so 15 true 1 false,
               simpleBeat (so + 1) 3 false 1 false, simpleBeat 0 3 false 5 false]
  | .mpop => [readBeat top 0 0 15 0o360 5]
  | .melse => [readBeat top (top + 1) 0 1 0o060 5]
  | _ => []

/-- The register beat of RLOG (R112). -/
def rlogBeat (x : AFields) : BeatWord :=
  BeatWord.mk 0 0 0 (x.b.extractLsb' 0 4) (x.b.extractLsb' 4 4) (x.b.extractLsb' 8 4) (x.a.setWidth 8) 0 (x.d.setWidth 3)
    false false false 0 (x.d.extractLsb' 4 2) (x.d.extractLsb' 6 6) false false (if x.d.getLsbD 3 then 1 else 0)

/-- MAX and MIN over the flock (R124, R226): the rows of responders, narrowed by the bits from the top down, those numbered `lo` to
`hi − 1` in the order of the search. -/
def searchRows (c : Chip) (cols : Cols) (op : AOp) (x : AFields) (lo hi : Nat) : List ((Nat × Nat) × Word) :=
  let n := x.len
  let places := (List.range 864).flatMap (fun r => (List.range cols.length).map (fun p => (p, r)))
  let start := places.map (fun q => let me := c.flockRow cols q.1 q.2; (q, me.f &&& me.m))
  (List.range (hi - lo)).foldl (fun resp i =>
    let k := n - 1 - (lo + i)
    let inv := (op == .min) ^^ (x.sgn && k == n - 1)
    let t := resp.map (fun q =>
      let a := planeRow c cols q.1.1 q.1.2 (x.a.toNat + k)
      (q.1, q.2 &&& (if inv then ~~~a else a)))
    if t.any (fun q => q.2 != 0) then t else resp) start

/-- F holds the responders after a part of the search, and whether there are any; the failed reads are logged with the first part. -/
def search (cols : Cols) (op : AOp) (x : AFields) (lo hi : Nat) (c0 : Chip) : Bool × RoutRes × Chip :=
  let rows := searchRows c0 cols op x lo hi
  let any := (List.range 864).any (fun r => (List.range cols.length).any (fun p => contrib false (c0.flockRow cols p r) != 0))
  let c := rows.foldl (fun c q =>
    let f := colFold (cols.getD q.1.1 (0, 0)) q.1.2
    let me := c0.lamb f (q.1.2 % 36)
    c.setLamb f (q.1.2 % 36) { me with f := wr me.f q.2 me.m }) c0
  let r := (cols.zipIdx).foldl (fun acc pc =>
    (List.range 24).foldl (fun (acc : RoutRes × Chip) y =>
      let f := foldIx pc.1.1 pc.1.2 y
      let errs := if lo = 0 then sourceErrs c0 op x f else []
      ({ acc.1 with bad := if errs.isEmpty then acc.1.bad else acc.1.bad ++ [f] }, foldErrors f errs acc.2)) acc)
    (({} : RoutRes), c)
  (any, r.1, r.2)

/-- The whole effect of a ROM routine with n not zero on the lambs of the flock: flags, failed folds and the reduction that
it samples (R100 to R133). A search goes on from bit number `lo` of its order. -/
def runRom (cols : Cols) (depth : Nat) (op : AOp) (x : AFields) (it : QItem) (lo : Nat) (c : Chip) : RoutRes × Option Red × Chip :=
  match op with
  | .mset | .mld | .mst | .mand | .mpush | .mpop | .melse =>
    let r := beats cols (maskBeats op x depth) c
    (r.1, none, r.2)
  | .rlog =>
    let r := beats cols (List.replicate x.len (rlogBeat x)) c
    (r.1, none, r.2)
  | .max | .min =>
    let r := search cols op x lo x.len c
    (r.2.1, some { rupd := 1, bell := r.1, count := 0, first := 0, micro := true }, r.2.2)
  | .bell => ({}, some (sample cols (x.md.getLsbD 0) 1 true c), c)
  | .count => ({}, some (sample cols (x.md.getLsbD 0) 2 true c), c)
  | .first => ({}, some (sample cols (x.md.getLsbD 0) 3 true c), c)
  | .pfence | .pres => ({}, none, c)
  | .div | .gdiv =>
    let r := routine cols op x it c
    (r.1, some (sample cols false 1 true r.2), r.2)
  | _ =>
    let r := routine cols op x it c
    (r.1, none, r.2)

end Sys2Proof.Machine
end

