-- ==== Sys2Proof/Machine/Micro.lean ====
section
/-!
DEFINITION. The microsequencers: starting instructions, microwords, beats on the die bridge, preemption, contexts, the vote.
Spec: R37 to R40, R103 to R109, R209 to R238.
-/
namespace Sys2Proof.Machine

def Chip.mseq (c : Chip) (k : Nat) : Mseq := SMap.get (fun _ => Mseq.init) c.arr.mseqs k
def Chip.setMseq (c : Chip) (k : Nat) (m : Mseq) : Chip :=
  { c with arr := { c.arr with mseqs := SMap.set (fun _ => Mseq.init) c.arr.mseqs k m } }
def Chip.modMseq (c : Chip) (k : Nat) (f : Mseq → Mseq) : Chip := c.setMseq k (f (c.mseq k))

/-- STAT bits of the MSEQ page (Table 7-9). -/
def Chip.mStopped (c : Chip) (k : Nat) : Bool := c.flag (pgMseq k) 3 0
def Chip.mHeld (c : Chip) (k : Nat) : Bool := c.flag (pgMseq k) 3 2
def Chip.csValid (c : Chip) (k : Nat) : Bool := c.flag (pgMseq k) 3 3
def Chip.voteState (c : Chip) : Nat := c.fld pgVote 3 0 2

/-- All cores and microsequencers. -/
def cores4 : List Nat := [0, 1, 2, 3]

/-! ### Instructions in the queue -/

def itemOp (it : QItem) : Option AOp := AOp.ofCode (headOp it.head)
def itemFields (it : QItem) : AFields := fieldsOf it.head it.tail

/-- DIV and GDIV hold the core (R104). -/
def isDiv (it : QItem) : Bool :=
  match itemOp it with
  | some .div | some .gdiv => true
  | _ => false

/-- Array floating-point instructions, for the waits of R148. -/
def isFloatItem (it : QItem) : Bool :=
  match itemOp it with
  | some o => o.isFloat
  | none => false

/-- Whether the instruction updates BELL (8), COUNT (9) or FIRST (10) (R130). -/
def updatesRed (it : QItem) (i : Nat) : Bool :=
  if (itemFields it).n == 0 then i == srBELL
  else match itemOp it with
    | some .bell | some .max | some .min | some .div | some .gdiv => i == srBELL
    | some .count => i == srBELL || i == srCOUNT
    | some .first => i == srBELL || i == srFIRST
    | _ => false

/-- The touch set (R106); empty with n = 0 (R100). -/
def touchSet (it : QItem) : List (Nat × Nat) :=
  match itemOp it with
  | some o =>
    let x := itemFields it
    if x.n == 0 then [] else (ranges o x).1 ++ (ranges o x).2
  | none => []

/-- The mask-stack depth after the instruction (R103, R126). -/
def depthAfter (it : QItem) (d : Nat) : Nat :=
  if (itemFields it).n == 0 then d
  else match itemOp it with
    | some .mpush => d + 1
    | some .mpop => d - 1
    | _ => d

/-- Some reservation of the flock's dies overlaps the ranges (R106, R107). -/
def reservedFor (c : Chip) (k : Nat) (rs : List (Nat × Nat)) : Bool :=
  (c.flockDies k).any (fun d => (reservations c d).any (fun r => rs.any (rangesMeet r)))

/-- The touch set of what runs on a die. -/
def busyRanges (c : Chip) (die : Nat) : List (Nat × Nat) :=
  if (c.mseq die).active then touchSet (c.mseq die).item else []

/-- The core executes nothing after a divide until the array has finished it (R104). -/
def divHold (c : Chip) (k : Nat) : Bool :=
  (c.core k).queue.any isDiv || ((c.mseq k).active && isDiv (c.mseq k).item)

/-- The redirect bit of the opcode (R212, Table 7-9). -/
def redirected (c : Chip) (k : Nat) (o : AOp) : Bool :=
  let x := o.code.toNat - 0o600
  if x < 36 then c.flag (pgMseq k) 27 x else c.flag (pgMseq k) 28 (x - 36)

/-! ### Values that the spec calls undefined -/

/-- The rows of the named planes of a die's folds take free values. -/
def undefPlanes (die : Nat) (rs : List (Nat × Nat)) (c : Chip) : Chip :=
  let rows := (activeFolds c die).flatMap (fun f => rs.flatMap (fun r =>
    (List.range r.2).flatMap (fun p => (List.range 36).map (fun i => (f, r.1 + p, i)))))
  let c' := (rows.zipIdx).foldl (fun d x =>
    d.setSlice x.1.1 x.1.2.1 x.1.2.2 (mkSlice (Config.freeWord (c.free + x.2)) 0)) c
  { c' with free := c.free + rows.length }

/-- Which of C, F, M, X and T an instruction's entry names: what it writes, and the X that GSHL, GSHR, GROT and TWIST save and restore
(R111 to R133). For RLOG it is the register that GDST selects (R112). -/
def namedRegs (o : AOp) (x : AFields) : Bool × Bool × Bool × Bool × Bool :=
  let d := x.d.toNat % 8
  match o with
  | .add | .sub | .addc | .neg | .adds | .subs | .gadd | .gsub | .gadds | .gneg | .div | .gdiv
  | .cmp | .cmps => (true, true, false, false, false)
  | .mul | .gmul => (true, false, false, false, false)
  | .gcmp | .gcmps | .max | .min | .fadd | .fsub | .fmul | .fdiv | .fma | .fcmp => (false, true, false, false, false)
  | .mset | .mld | .mand | .mpush | .mpop | .melse => (false, false, true, false, false)
  | .move | .rowb | .colb | .gshl | .gshr | .grot | .twist => (false, false, false, true, false)
  | .rlog => (false, d == 3, d == 5, d == 2, d == 4)
  | _ => (false, false, false, false, false)

/-- The destination planes, those of the mask-stack level that MPUSH writes included (R126, R213). -/
def destRanges (o : AOp) (x : AFields) (depth : Nat) : List (Nat × Nat) :=
  if x.n = 0 then [] else if o = .mpush ∧ depth < 16 then [(maskPlane depth, 2)] else (ranges o x).2

/-- The named registers of every lamb of a die take free values. -/
def undefRegs (die : Nat) (nr : Bool × Bool × Bool × Bool × Bool) (c : Chip) : Chip :=
  let rows := (activeFolds c die).flatMap (fun f => (List.range 36).map (fun i => (f, i)))
  let c' := (rows.zipIdx).foldl (fun (d : Chip) x =>
    let v (j : Nat) := Config.freeWord (c.free + 5 * x.2 + j)
    let me := d.lamb x.1.1 x.1.2
    d.setLamb x.1.1 x.1.2
      { c := if nr.1 then v 0 else me.c
        f := if nr.2.1 then v 1 else me.f
        m := if nr.2.2.1 then v 2 else me.m
        x := if nr.2.2.2.1 then v 3 else me.x
        t := if nr.2.2.2.2 then v 4 else me.t }) c
  { c' with free := c.free + 5 * rows.length }

/-- The destination planes of the instruction on a die and the registers that it names become undefined (R213). -/
def undefResults (k : Nat) (it : QItem) (c : Chip) : Chip :=
  match itemOp it with
  | some o =>
    let x := itemFields it
    undefRegs k (if x.n = 0 then (false, false, false, false, false) else namedRegs o x) (undefPlanes k (destRanges o x (c.mseq k).depth) c)
  | none => c

/-! ### Beats sent (R221 to R223) -/

/-- The signature register after one more beat word. It is held as it reads, with the final inversion of R211. -/
def sigStep (s : BitVec 32) (w : BeatWord) : BitVec 32 := ~~~ (crc32Fold (~~~ s) w.toNat 121)
/-- The signature at the start of an instruction: the CRC of nothing. -/
def sigStart : Word := 0
def Chip.beatNo (c : Chip) (k : Nat) : Word := c.reg (pgMseq k) 35
def addBeats (k n : Nat) (c : Chip) : Chip := c.setReg (pgMseq k) 35 (c.beatNo k + BitVec.ofNat 36 n)
def foldSig (k : Nat) (w : BeatWord) (c : Chip) : Chip :=
  c.setReg (pgMseq k) 36 ((sigStep ((c.reg (pgMseq k) 36).setWidth 32) w).setWidth 36)

/-- The fence beat of R216. -/
def fenceBeat : BeatWord := BeatWord.mk 0 0 0 15 15 15 0 0 0 false false false 0 0 0 false true 0

/-- A reduction on its way to every core of the flock. -/
def pushRed (ks : List Nat) (r : Red) (c : Chip) : Chip :=
  ks.foldl (fun c k => c.modMseq k (fun m => { m with reds := m.reds ++ [r] })) c

/-- REDUCTION_DELIVER (R40, R130, R220): the oldest result reaches its register, and BELLIN if a microroutine sampled it. -/
def reductionDeliver (k : Nat) (c : Chip) : Chip :=
  match (c.mseq k).reds with
  | [] => c
  | r :: rest =>
    let c := c.modMseq k (fun m => { m with reds := rest, bellin := if r.micro then r.bell else m.bellin })
    let c := if r.rupd = 0 then c else c.setSr k srBELL (ofBool r.bell)
    if r.rupd = 2 then c.setSr k srCOUNT (BitVec.ofNat 36 r.count)
    else if r.rupd = 3 then c.setSr k srFIRST r.first else c

/-! ### The die bridge (R87, R222) -/

def Chip.onBridge (c : Chip) (die : Nat) : Option (BitVec 168) := SMap.get (fun _ => none) c.arr.bridge die
def Chip.setBridge (c : Chip) (die : Nat) (x : Option (BitVec 168)) : Chip :=
  { c with arr := { c.arr with bridge := SMap.set (fun _ => none) c.arr.bridge die x } }
def Chip.rxOf (c : Chip) (f : Nat) : Option (BitVec 121) := SMap.get (fun _ => none) c.arr.rx f
def Chip.setRx (c : Chip) (f : Nat) (x : Option (BitVec 121)) : Chip :=
  { c with arr := { c.arr with rx := SMap.set (fun _ => none) c.arr.rx f x } }
def Chip.foldDead (c : Chip) (f : Nat) : Bool := SMap.get (fun _ => false) c.arr.dead f
def Chip.killFold (c : Chip) (f : Nat) : Chip :=
  { c with arr := { c.arr with dead := SMap.set (fun _ => false) c.arr.dead f true } }

/-- The 168-bit frame of Table 7-6. -/
def frameOf (no : Word) (w : BeatWord) : BitVec 168 :=
  let v : BitVec 152 := no.setWidth 24 ++ (0 : BitVec 7) ++ w
  crc16 v ++ v
/-- The folds of a die give up the beat words that they hold. -/
def Chip.dropRx (c : Chip) (die : Nat) : Chip :=
  let held := c.arr.rx.filter (fun e => foldDie e.1 == die)
  let c := held.foldl (fun c e => c.setFlag (foldPage e.1) 3 1 false) c
  { c with arr := { c.arr with rx := SMap.drop (fun f => foldDie f == die) c.arr.rx } }

/-! ### Starting and finishing an instruction (R98, R106, R216) -/

/-- What the microsequencers of the flock of bellwether k would start next: the head of the queue, or the voted one. -/
def nextItem (c : Chip) (k : Nat) : Option QItem :=
  if c.linked then (c.mseq 0).voted else (c.core k).queue.head?

/-- Nothing stands in the way of starting the instruction (R106, R107, R189, R227, R236, R410, R496). -/
def mayStart (c : Chip) (k : Nat) (it : QItem) : Bool :=
  let ks := c.flockCores k
  ks.all (fun j => !(c.mseq j).active && !(c.mseq j).preempt && !c.mHeld j && !c.mStopped j && !c.istop j && !c.halted j &&
    !clearingAny c j) &&
  c.mode != modeQuiescent && c.voteState != 2 && !reservedFor c k (touchSet it)

/-- The register loads of R216. -/
def loadMseq (k : Nat) (it : QItem) (c : Chip) : Chip :=
  let x := itemFields it
  let c := c.modMseq k (fun m =>
    { m with ar := [x.a, x.b, x.d, 0, 0, 0, 0, 0], cnt0 := x.n, cnt1 := 0, bi := 0, item := it, progress := 0, bellin := false,
             mstack := [], since := 0, dry := 0, pos := 0, active := true, rom := none, fence := false, voted := none, derr := [], lastBell := false,
             atCkpt := false, ending := false, foreign := false,
             reds := m.reds.map (fun r => { r with micro := false }) })
  (c.setFlag (pgMseq k) 3 1 true).setReg (pgMseq k) 36 sigStart

/-- The failed folds of a finished instruction reach the bellwether as data machine checks (R81). -/
def reportFolds (k : Nat) (bad : List Nat) (c : Chip) : Chip :=
  (bad.eraseDups).foldl (fun c f => dataCheck k 1 (foldDie f) (foldCol f) (foldRow f) c) c

/-- The instruction of microsequencer k is over: its depth, BUSY and the working planes (R224). -/
def retire (k : Nat) (c : Chip) : Chip :=
  let c := c.modMseq k (fun m => { m with active := false, rom := none, fence := false, ending := false, atCkpt := false, mstack := [],
                                          depth := depthAfter m.item m.depth })
  (c.setFlag (pgMseq k) 3 1 false).endWork k

/-- The array divide-by-zero trap of the cores of the flock (R104). -/
def divTrap (ks : List Nat) (it : QItem) (dz : Bool) (c : Chip) : Chip :=
  if dz then ks.foldl (fun c j => trapEntry j 0o011 it.pc 0 c) c else c

/-- Beats of the ROM routine (Table 4-3), with the effective count of a gang shift (R119). -/
def romBeats (c : Chip) (k : Nat) (o : AOp) (it : QItem) : Nat :=
  let count := it.sop.toNat % 2 ^ 36
  let q := if o == .grot then count % 36 else if (o == .gshl || o == .gshr) && decide (count < 36) then count else 0
  beatsOf o (itemFields it) (c.flockCols k).length q

/-- A ROM routine that carries checkpoints: those that R225 lists, and any that takes more than 4,096 beats. -/
def carriesCkpt (o : AOp) (x : AFields) (beats : Nat) : Bool :=
  (match o with
   | .mul | .div | .gmul | .gdiv | .move | .rowb | .colb | .gshl | .gshr | .grot | .max | .min => true
   | .add | .sub | .addc | .neg | .adds | .subs | .gadd | .gsub | .gadds | .gneg => x.fl != 0
   | _ => false) || decide (4096 < beats)

/-- The failed folds of instruction k so far reach the bellwether as data machine checks (R81). -/
def reportDerr (k : Nat) (c : Chip) : Chip :=
  ((c.mseq k).derr.eraseDups).foldl (fun c e => dataCheck k 1 e.1 e.2.1 e.2.2 c) (c.modMseq k (fun m => { m with derr := [] }))

/-- Slices and lamb rows of a ROM routine take their final values. -/
def putSlices (l : List (Nat × BitVec 40)) (c : Chip) : Chip :=
  { c with arr := { c.arr with planes := SMap.setAll (fun _ => 0) c.arr.planes l } }
def putRows (l : List (Nat × LambRow)) (c : Chip) : Chip :=
  { c with arr := { c.arr with lambs := SMap.setAll (fun _ => LambRow.formed) c.arr.lambs l } }

/-- The planes and lamb rows that the state `c'` after the routine holds, in routine order, for a routine that stops at a checkpoint. -/
def romTodo (cols : Cols) (o : AOp) (x : AFields) (depth : Nat) (r : RoutRes) (c' : Chip) : RomTodo :=
  let rows := cols.flatMap (fun dc => (List.range 864).map (fun i => (colFold dc i, i % 36)))
  { planes := ((destRanges o x depth).flatMap (fun q => (List.range q.2).map (fun i => q.1 + i))).map (fun p =>
      rows.map (fun q => (planeKey q.1 p q.2, c'.slice q.1 p q.2)))
    regs := rows.map (fun q => (rowKey q.1 q.2, c'.lamb q.1 q.2))
    fl := r.fl.bits, dz := r.dz }

/-- What the routine has still to give takes effect: its flags, its divide-by-zero, its failed folds, its sample. -/
def romRest (k : Nat) (o : AOp) (r : RomRun) (c : Chip) : Nat × Bool × List Nat × Option Red × Chip :=
  let m := c.mseq k
  let x := itemFields m.item
  let cols := c.flockCols k
  match r.todo with
  | none =>
    let q := runRom cols m.depth o x m.item m.progress.toNat c
    (q.1.fl.bits, q.1.dz, q.1.bad, q.2.1, q.2.2)
  | some t =>
    let c := putRows t.regs (t.planes.foldl (fun c l => putSlices l c) c)
    (t.fl, t.dz, [], if isDiv m.item then some (sample cols false 1 true c) else none, c)

/-- RESUME of a context that the device did not write leaves the destination planes and every lamb register undefined (R231). -/
def foreignUndef (k : Nat) (it : QItem) (c : Chip) : Chip :=
  match itemOp it with
  | some o => undefRegs k (true, true, true, true, true) (undefPlanes k (destRanges o (itemFields it) (c.mseq k).depth) c)
  | none => undefRegs k (true, true, true, true, true) c

/-- The END of a ROM routine: its result, its flags, its reduction, its beats and its end (log entry 8). It lies within 4,096 beats of the
last checkpoint, and a fold that has stopped ends nothing (R88, R225). -/
def romEnd (k : Nat) (c : Chip) : Chip :=
  let ks := c.flockCores k
  let m := c.mseq k
  match m.rom, itemOp m.item with
  | some r, some o =>
    if 4096 < r.left ∨ ks.any (fun j => (activeFolds c j).any c.foldDead) = true then c
    else
      let q := romRest k o r c
      let c := q.2.2.2.2
      let c := ks.foldl (fun c j => (addBeats j r.left c).setReg (pgMseq j) 36 ((Config.romBeatSig c.free).setWidth 36)) c
      let c := match q.2.2.2.1 with
        | some red => pushRed ks { red with micro := false } c
        | none => c
      let c := ks.foldl (fun c j => c.setSr j srFPSW (c.sr j srFPSW ||| BitVec.ofNat 36 q.1)) { c with free := c.free + 1 }
      let c := if m.foreign then ks.foldl (fun c j => foreignUndef j m.item c) c else c
      let c := ks.foldl (fun c j => retire j c) c
      divTrap ks m.item q.2.1 (ks.foldl (fun c j => reportDerr j c) (reportFolds k q.2.2.1 c))
  | _, _ => c

/-- A ROM routine reaches a checkpoint inside its loop (R225, R226): some more of its destination planes, or of the bits it searches, are
final. Where its checkpoints stand is not published, so both the planes and the beats are free (log entry 8). -/
def romCkpt (k : Nat) (c : Chip) : Chip :=
  let ks := c.flockCores k
  let m := c.mseq k
  match m.rom, itemOp m.item with
  | some r, some o =>
    let x := itemFields m.item
    if !carriesCkpt o x (romBeats c k o m.item) || decide (r.left ≤ 1) || ks.any (fun j => (activeFolds c j).any c.foldDead) then c
    else
      let cols := c.flockCols k
      let sent := 1 + (Config.freeWord c.free).toNat % min 4096 (r.left - 1)
      let v := (Config.freeWord (c.free + 1)).toNat
      let c := { c with free := c.free + 2 }
      let step (more : Nat) (todo : Option RomTodo) (bad : List Nat) (c : Chip) : Chip :=
        ks.foldl (fun c j => addBeats j sent (c.modMseq j (fun m =>
          { m with progress := m.progress + BitVec.ofNat 13 more, atCkpt := true, rom := some ⟨r.left - sent, todo⟩,
                   derr := m.derr ++ (bad.filter (fun f => foldDie f == j)).map (fun f => (foldDie f, foldCol f, foldRow f)) }))) c
      if o = .max ∨ o = .min then
        let lo := m.progress.toNat
        let more := v % (x.len - lo + 1)
        let s := search cols o x lo (lo + more) c
        step more none s.2.1.bad s.2.2
      else
        let q : RomTodo × List Nat × Chip := match r.todo with
          | some t => (t, [], c)
          | none =>
            let q := runRom cols m.depth o x m.item 0 c
            (romTodo cols o x m.depth q.1 q.2.2, q.1.bad,
              { q.2.2 with arr := { q.2.2.arr with planes := c.arr.planes, lambs := c.arr.lambs, work := c.arr.work } })
        let more := v % (q.1.planes.length + 1)
        step more (some { q.1 with planes := q.1.planes.drop more }) q.2.1 ((q.1.planes.take more).foldl (fun c l => putSlices l c) q.2.2)
  | _, _ => c

/-- The single beat of an instruction with n = 0 goes out; it ends with the beat (R100, R216). -/
def sendFence (k : Nat) (c : Chip) : Chip :=
  (c.flockCores k).foldl (fun c j =>
    foldSig j fenceBeat (addBeats j 1 ((c.setBridge j (some (frameOf (c.beatNo j) fenceBeat))).modMseq j (fun m =>
      { m with fence := true, rupd := 1 })))) c

/-- The channel that PRES names: die, unit, channel (R108). -/
def presPlace (c : Chip) (k : Nat) (it : QItem) : Nat × Nat × Nat :=
  let s := it.sop.toNat
  (if c.linked then s / 256 % 4 else k, s / 16 % 16, s % 16)

/-- PRES under way (R108, R251): it starts its channel once the channel is IDLE (PROGRESS marks that), and completes once
the channel has its reservation or has come back to IDLE. -/
def presStep (k : Nat) (c : Chip) : Chip :=
  let ks := c.flockCores k
  let m := c.mseq k
  let p := presPlace c k m.item
  let st := (c.chan p.1 p.2.1 p.2.2).st
  if m.progress = 0 then
    if st = 0 then
      (chanStart p.1 p.2.1 p.2.2 1 c) |> fun c => ks.foldl (fun c j => c.modMseq j (fun m => { m with progress := 1 })) c
    else c
  else if st = 1 ∨ st = 2 ∨ st = 3 then c
  else ks.foldl (fun c j => retire j ((addBeats j 1 c).setReg (pgMseq j) 36 ((Config.romBeatSig c.free).setWidth 36)))
    { c with free := c.free + 1 }

/-- Whether microsequencer k runs a PRES of the ROM. -/
def inPres (c : Chip) (k : Nat) : Bool :=
  (c.mseq k).active && itemOp (c.mseq k).item == some .pres && (itemFields (c.mseq k).item).n != 0 && !redirected c k .pres

/-- The instruction begins: its queue entry is freed, the registers are loaded and its routine is entered (R187, R216). MOVE with SRC = E
runs the published microwords of Table 7-7; every other ROM routine goes on by CONT, to a checkpoint, and by END (log entry 8). -/
def begin (k : Nat) (it : QItem) (c : Chip) : Chip :=
  let ks := c.flockCores k
  let c := ks.foldl (fun c j => loadMseq j it (c.setCore j { c.core j with queue := (c.core j).queue.tail })) c
  match itemOp it with
  | none => ks.foldl (fun c j => retire j c) c
  | some o =>
    if (itemFields it).n = 0 then sendFence k c
    else if redirected c k o then
      ks.foldl (fun c j => c.modMseq j (fun m => { m with upc := BitVec.ofNat 13 (4096 + 4 * (o.code.toNat - 0o600)) })) c
    else
      let c := ks.foldl (fun c j => c.modMseq j (fun m => { m with upc := BitVec.ofNat 13 (4 * (o.code.toNat - 0o600)) })) c
      if o = .pres then presStep k c
      else if o = .move ∧ (itemFields it).md.toNat % 8 = 1 then c
      else ks.foldl (fun c j => c.modMseq j (fun m => { m with rom := some ⟨romBeats c k o it, none⟩ })) c

/-! ### FLUSH (R457) -/

/-- A FLUSH acts once no core of the flock is behind the common boundary: the queues empty, the mask-stack depth is that of the array,
and issue goes on. -/
def flushTry (k : Nat) (c : Chip) : Chip :=
  let ks := c.flockCores k
  if ks.all (fun j => (c.core j).flush && !c.behind j) then
    ks.foldl (fun c j =>
      let c := (c.setCore j { c.core j with queue := [], flush := false }).modMseq j (fun m => { m with voted := none })
      (c.setSr j srMSDEPTH (BitVec.ofNat 36 (c.mseq j).depth)).setFlag (pgBw j) 3 4 false) c
  else c

/-- MSEQ_START (R216): the next instruction begins when nothing blocks it; a PRES under way goes on. -/
def mseqStart (k : Nat) (c : Chip) : Chip :=
  let c := flushTry k c
  if inPres c k then (if c.mHeld k then c else presStep k c)
  else match nextItem c k with
    | some it => if mayStart c k it then begin k it c else c
    | none => c

/-! ### Microwords (R217 to R220, R232) -/

abbrev Mword := BitVec 144

namespace Mword
def at' (w : Mword) (lo n : Nat) : Nat := (w.toNat >>> lo) % 2 ^ n
def seqop (w : Mword) : Nat := at' w 140 4
def next (w : Mword) : Nat := at' w 127 13
/-- CSi of bit i. -/
def cs (w : Mword) (i : Nat) : Nat := at' w (111 + 4 * i) 4
def beat (w : Mword) : Bool := w.getLsbD 110
def ckpt (w : Mword) : Bool := w.getLsbD 109
def rupd (w : Mword) : Nat := at' w 107 2
def cntop (w : Mword) : Nat := at' w 104 3
def incs (w : Mword) : List (Nat × Nat) := [(at' w 88 4, at' w 102 2), (at' w 84 4, at' w 100 2), (at' w 80 4, at' w 98 2)]
def arw (w : Mword) : Nat := at' w 95 3
def arsrc (w : Mword) : Nat := at' w 92 3
def immsrc (w : Mword) : Nat := at' w 77 3
def pinc (w : Mword) : Bool := w.getLsbD 29
def lit (w : Mword) : Nat := at' w 0 27
end Mword

/-- Sixteen even parity bits of a microword. -/
def csParity (w : Mword) : BitVec 16 :=
  (List.range 16).foldl (fun p i => if parityOf 9 (w.toNat >>> (9 * i) % 512) then p ||| (1#16 <<< i) else p) 0
def csStore (w : Mword) : BitVec 160 := csParity w ++ w
/-- The words of the ROM: those of Table 7-7 as published, with zero in the fields that the table does not give (log entry 8), and the
rest vendor microcode (R209). -/
def romMword (a : Nat) : Mword :=
  match a with
  | 0o260 => BitVec.ofNat 144 (1 * 2 ^ 140 + 0o1000 * 2 ^ 127 + 0o16 * 2 ^ 119 + 0o10 * 2 ^ 115 + 0o07 * 2 ^ 111)
  | 0o1001 => BitVec.ofNat 144 (1 * 2 ^ 140 + 0o1021 * 2 ^ 127 + 2 ^ 110 + 2 ^ 70 + 2 * 2 ^ 66 + 0o360 * 2 ^ 42 + 15 * 2 ^ 38 + 15 * 2 ^ 34)
  | 0o1011 => BitVec.ofNat 144 (4 * 2 ^ 140)
  | 0o1021 => BitVec.ofNat 144 0o042002100006050400001000010000036077674000000000
  | _ => Config.romWord a
/-- A control-store word as stored: ROM below 4,096, RAM above (R209). -/
def csStored (c : Chip) (k a : Nat) : BitVec 160 :=
  if a < 4096 then csStore (romMword a) else SMap.get (fun _ => 0) c.arr.cs (k * 8192 + a)
def setCs (k a : Nat) (w : Mword) (c : Chip) : Chip :=
  { c with arr := { c.arr with cs := SMap.set (fun _ => 0) c.arr.cs (k * 8192 + a) (csStore w) } }
/-- The lowest nonet of a stored word whose check fails. -/
def csBad (x : BitVec 160) : Option Nat :=
  let p := (x >>> 144).setWidth 16 ^^^ csParity (x.setWidth 144)
  (List.range 16).find? (fun i => p.getLsbD i)

/-- Bit i of the extended operand (R218). -/
def extBit (it : QItem) (i : Nat) : Bool :=
  if i < 72 then it.sop.getLsbD i else (itemFields it).sgn && it.sop.getLsbD 71

def arOf (m : Mseq) (i : Nat) : BitVec 13 := m.ar.getD i 0
/-- The address that a selector names. -/
def selAddr (m : Mseq) (w : Mword) (s : Nat) : BitVec 13 := if s < 8 then arOf m s else BitVec.ofNat 13 (w.lit % 8192)

/-- The beat word of a microword (R218, R221). -/
def beatWordOf (m : Mseq) (w : Mword) : BeatWord :=
  let sels := w.incs.map (fun x => selAddr m w x.1)
  let imm : Word := match w.immsrc with
    | 1 => BitVec.allOnes 36
    | 2 => BitVec.ofNat 36 w.lit
    | 3 => m.item.sop.setWidth 36
    | 4 => (m.item.sop >>> 36).setWidth 36
    | 5 => fill (extBit m.item m.bi.toNat)
    | _ => 0
  let g : BitVec 8 := if w.getLsbD 76 then (itemFields m.item).tt else BitVec.ofNat 8 (w.at' 42 8)
  BeatWord.mk (sels.getD 0 0) (sels.getD 1 0) (sels.getD 2 0) (BitVec.ofNat 4 (w.at' 30 4)) (BitVec.ofNat 4 (w.at' 34 4))
    (BitVec.ofNat 4 (w.at' 38 4)) g (BitVec.ofNat 8 (w.at' 50 8)) (BitVec.ofNat 3 (w.at' 66 3)) (w.getLsbD 69)
    (w.getLsbD 70) (w.getLsbD 71) (BitVec.ofNat 2 (w.at' 72 2)) (BitVec.ofNat 2 (w.at' 64 2)) (BitVec.ofNat 6 (w.at' 58 6))
    (w.getLsbD 75) (w.getLsbD 74) imm

/-- The registers after the microword's updates (R218, Table 7-5). -/
def microUpdate (m : Mseq) (w : Mword) : Mseq :=
  let x := itemFields m.item
  let inc (r : Nat) (v : BitVec 13) : BitVec 13 :=
    match (w.incs.find? (fun i => i.1 == r && i.2 != 0)).map (fun i => i.2) with
    | some 1 => v + 1
    | some 2 => v - 1
    | _ => v
  let l13 := BitVec.ofNat 13 w.lit
  let load : Option (BitVec 13) := match w.arsrc with
    | 1 => some l13
    | 2 => some x.a
    | 3 => some x.b
    | 4 => some x.d
    | 5 => some (x.d + x.n.setWidth 13)
    | 6 => some (arOf m w.arw + l13)
    | _ => none
  let ar := (List.range 8).map (fun r =>
    match load with
    | some v => if r = w.arw then v else inc r (arOf m r)
    | none => inc r (arOf m r))
  let l12 := BitVec.ofNat 12 w.lit
  let dec (v : BitVec 12) : BitVec 12 := if v = 0 then 0 else v - 1
  { m with
      ar := ar
      cnt0 := match w.cntop with | 1 => dec m.cnt0 | 4 => l12 | _ => m.cnt0
      cnt1 := match w.cntop with | 2 => dec m.cnt1 | 3 => l12 | 5 => m.cnt0 | _ => m.cnt1
      bi := match w.cntop with | 6 => (if m.bi = BitVec.allOnes 12 then m.bi else m.bi + 1) | 7 => l12 | _ => m.bi
      progress := if w.pinc then m.progress + 1 else m.progress }

/-- The conditions of Table 7-4, on the registers after the updates (R219). -/
def condOf (m : Mseq) (code : Nat) : Bool :=
  let x := itemFields m.item
  match code with
  | 1 => m.cnt0 == 0
  | 2 => m.cnt1 == 0
  | 3 => extBit m.item m.bi.toNat
  | 4 => m.bellin
  | 5 => x.md.getLsbD 9
  | 6 => x.md.getLsbD 8
  | 7 => x.md.getLsbD 0
  | 8 => x.md.getLsbD 1
  | 9 => x.n == 64
  | 10 => x.md.extractLsb' 10 2 != 0
  | 11 => decide (x.n.toNat ≤ m.bi.toNat)
  | 12 => decide (36 ≤ m.item.sop.toNat % 2 ^ 36)
  | 13 => arOf m 0 == arOf m 2
  | 14 => x.md.getLsbD 2
  | 15 => true
  | _ => false

/-- NEXT with the conditions ORed in. -/
def nextAddr (m : Mseq) (w : Mword) : BitVec 13 :=
  (List.range 4).foldl (fun a i => if condOf m (w.cs i) then a ||| (1#13 <<< i) else a) (BitVec.ofNat 13 w.next)

/-- The microsubroutine stack after the microword. -/
def stackAfter (m : Mseq) (w : Mword) : List (BitVec 13) :=
  match w.seqop with
  | 2 => (m.upc + 1) :: m.mstack
  | 3 => m.mstack.tail
  | _ => m.mstack

/-- The checks of R232, R88 and R225. -/
def microLegal (m : Mseq) (w : Mword) : Bool :=
  let after := microUpdate m w
  let incs := w.incs.filter (fun i => i.2 != 0 && decide (i.1 < 8))
  decide (1 ≤ w.seqop) && decide (w.seqop ≤ 5) &&
  w.incs.all (fun i => i.2 != 3 && decide (i.1 ≤ 8)) && w.arsrc != 7 && decide (w.immsrc ≤ 5) &&
  w.at' 27 2 == 0 && (w.rupd == 0 || w.getLsbD 74) &&
  incs.all (fun i => incs.all (fun j => i.1 != j.1 || i.2 == j.2)) &&
  !(w.seqop == 2 && decide (4 ≤ m.mstack.length)) && !(w.seqop == 3 && m.mstack.isEmpty) &&
  !(w.ckpt && (!(stackAfter m w).isEmpty || decide (1023 < after.cnt1.toNat))) &&
  (w.beat || decide (m.dry < 4096)) &&
  (!w.beat || ((beatWordOf m w).legal && decide (m.since < 4096)))

/-! ### The die bridge and the folds (R87, R88, R91, R222) -/

/-- Table 7-6 read back: the beat word, if the check code, the reserved bits and the beat number are right. -/
def frameWord (x : BitVec 168) (expect : BitVec 24) : Option BeatWord :=
  let v : BitVec 152 := x.setWidth 152
  if (x >>> 152).setWidth 16 = crc16 v ∧ (x >>> 121).setWidth 7 = 0#7 ∧ (x >>> 128).setWidth 24 = expect
  then some (x.setWidth 121) else none

/-- The low 24 bits of the beat that the folds of a die expect: the last one sent. -/
def expectedBeat (c : Chip) (die : Nat) : BitVec 24 := (c.beatNo die - 1).setWidth 24

/-- A ROM routine whose beat words are not published runs on the die. -/
def romRunning (c : Chip) (die : Nat) : Bool := (c.mseq die).active && (c.mseq die).rom.isSome && !c.mHeld die
/-- A fold stops during a ROM routine: what the instruction gives is undefined (R88, R91, Table 16-3). -/
def killRom (die f : Nat) (c : Chip) : Chip :=
  (c.flockCores die).foldl (fun c j => undefResults j (c.mseq j).item c) (c.killFold f)

/-- BEAT_FRAME (R222, R88): one fold receives the frame on its die's bridge, changed on the way by `err`. -/
def beatFrame (f : Nat) (err : BitVec 168) (c : Chip) : Chip :=
  let die := foldDie f
  match c.onBridge die with
  | none =>
    -- a frame of a ROM routine, whose beat word is not published
    if romRunning c die && !c.foldDead f && (activeFolds c die).contains f &&
        (frameWord (frameOf (c.beatNo die) (Config.romBeat c.free) ^^^ err) ((c.beatNo die).setWidth 24)).isNone then
      killRom die f (controlCheck die 5 die (foldCol f) (foldRow f) 2 (c.raise (foldPage f) 2))
    else c
  | some x =>
    if c.foldDead f || (c.rxOf f).isSome || !(activeFolds c die).contains f then c
    else match frameWord (x ^^^ err) (expectedBeat c die) with
      | some w => (c.setRx f (some w)).setFlag (foldPage f) 3 1 true
      | none =>
        controlCheck die 5 die (foldCol f) (foldRow f) 2 ((c.killFold f).raise (foldPage f) 2)

/-- FOLD_STALL (R91): a fold that holds a beat word, as every fold does during a ROM routine, gives up waiting. -/
def foldStall (f : Nat) (c : Chip) : Chip :=
  if (c.rxOf f).isSome && !c.foldDead f then
    controlCheck (foldDie f) 5 (foldDie f) (foldCol f) (foldRow f) 3 ((c.killFold f).raise (foldPage f) 1)
  else if romRunning c (foldDie f) && !c.foldDead f && (activeFolds c (foldDie f)).contains f then
    killRom (foldDie f) f (controlCheck (foldDie f) 5 (foldDie f) (foldCol f) (foldRow f) 3 (c.raise (foldPage f) 1))
  else c

/-- BEAT (R34, R67, R87, R89): every fold of the flock holds its beat word, and the beat is executed. The fold islands have no
clock in QUIESCENT (R410). -/
def beatExec (k : Nat) (c : Chip) : Chip :=
  let dies := c.flockDies k
  let ks := c.flockCores k
  let fs := dies.flatMap (activeFolds c)
  if c.mode != modeQuiescent && dies.all (fun d => (c.onBridge d).isSome && !c.halted d) && fs.all (fun f => (c.rxOf f).isSome && !c.foldDead f) then
    let word (d : Nat) : BeatWord :=
      match (activeFolds c d).head? with
      | some f => (c.rxOf f).getD 0
      | none => ((c.onBridge d).getD 0).setWidth 121
    let cols := c.flockCols k
    let r := beat cols word c
    let c := fs.foldl (fun c f => (c.setRx f none).setFlag (foldPage f) 3 1 false) r.2
    let c := dies.foldl (fun c d => c.setBridge d none) c
    let w := word (dies.headD 0)
    let c := ks.foldl (fun c j => c.modMseq j (fun m =>
      { m with derr := m.derr ++ (r.1.filter (fun f => foldDie f == j)).map (fun f => (foldDie f, foldCol f, foldRow f)) })) c
    let c := if w.sample then
        let red := sample cols w.all (c.mseq k).rupd (!(c.mseq k).fence) c
        ks.foldl (fun c j => c.modMseq j (fun m => { m with lastBell := red.bell })) (pushRed ks red c)
      else c
    if ks.all (fun j => (c.mseq j).fence) then ks.foldl (fun c j => reportDerr j (retire j c)) c else c
  else c

/-! ### Executing a microword -/

/-- The microsequencer stops (R213, R214, R232): nothing of the microword happens. Reads that failed before it are reported after the
control cause (R81, R455). -/
def mseqStop (k tval : Nat) (c : Chip) : Chip :=
  let ks := c.flockCores k
  let c := ks.foldl (fun c j =>
    let it := (c.mseq j).item
    let c := undefResults j it c
    let c := ((c.modMseq j (fun m => { m with active := false, rom := none, fence := false })).setBridge j none).dropRx j
    (c.setFlag (pgMseq j) 3 0 true).setFlag (pgMseq j) 3 1 false) c
  ks.foldl (fun c j => reportDerr j c) (controlCheck k 4 k 15 0 (BitVec.ofNat 36 tval) c)

/-- A microword whose parity check fails (R213). -/
def csParityStop (k a nonet : Nat) (c : Chip) : Chip :=
  let c := (c.log (pgMseq k) 37 false (withField (withField 0 13 4 nonet) 0 13 a)).raise (pgMseq k) 0
  mseqStop k 1 c
/-- An illegal microword or beat word (R232). -/
def mwerrStop (k : Nat) (c : Chip) : Chip := mseqStop k 2 (c.raise (pgMseq k) 2)

/-- A sampled bell has not reached BELLIN yet (R220). -/
def bellPending (c : Chip) (k : Nat) : Bool :=
  (c.mseq k).reds.any (fun r => r.micro) ||
  (match c.onBridge k with | some x => x.getLsbD 36 | none => false)

/-- Microsequencer j stands at a later point of the stream than k (R228, R497). Beat numbers wrap. -/
def ahead (c : Chip) (k j : Nat) : Bool :=
  let d := (c.beatNo j - c.beatNo k).toNat
  (d != 0 && decide (d < 2 ^ 35)) || (d == 0 && decide ((c.mseq k).pos < (c.mseq j).pos))

/-- The microsequencer can execute a microword now. In LINKED it runs on to the point of the farthest one before it is held or halts
(R228, R497). -/
def mseqReady (c : Chip) (k : Nat) : Bool :=
  let m := c.mseq k
  let behind := c.linked && (c.flockCores k).any (ahead c k)
  m.active && !m.fence && !c.mHeld k && !c.mStopped k && (!c.halted k || behind) && !inPres c k && !(m.preempt && m.atCkpt && !behind)

/-- The signatures of the four dies at END in LINKED (R235). -/
def sigCompare (c : Chip) : Chip :=
  let s := cores4.map (fun j => c.reg (pgMseq j) 36)
  if s.all (fun x => x == s.headD 0) then c
  else
    let odd := cores4.filter (fun j => (cores4.filter (fun i => s.getD i 0 == s.getD j 0)).length == 1)
    let three := cores4.any (fun j => (cores4.filter (fun i => s.getD i 0 == s.getD j 0)).length == 3)
    let bits := if three then odd.foldl (fun b j => b + 2 ^ j) 0 else 0
    let c := c.raise pgVote 2
    let c := c.log pgVote 17 false
      (withField (withField (withField (withField 0 34 1 1) 32 2 1) 28 4 bits) 0 28 (fieldOf (c.beatNo 0) 0 28))
    let c := c.setFld pgVote 3 0 2 2
    controlCheck 0 3 (if three then odd.headD 0 else 0) 15 0 0 c

/-- The instruction of a RAM routine completes at its END (R218). DESIGN CHOICE (log entry 8): a RAM routine of a floating-point opcode
raises no flag in FPSW, because no field of Table 7-2 carries one (R121, R148). -/
def completeRam (k : Nat) (c : Chip) : Chip :=
  let m := c.mseq k
  let it := m.item
  let errs := m.derr
  let c := if m.foreign then foreignUndef k it c else c
  let c := retire k c
  let ks := c.flockCores k
  let c := if c.linked && ks.all (fun j => !(c.mseq j).active) then sigCompare c else c
  let c := errs.eraseDups.foldl (fun c e => dataCheck k 1 e.1 e.2.1 e.2.2 c) c
  if ks.all (fun j => !(c.mseq j).active) && (itemFields it).n != 0 && isDiv it then divTrap ks it m.lastBell c else c

/-- The frame is sent, the signature and SINCE take it in (R221 to R225). -/
def sendBeat (k : Nat) (w : Mword) (c : Chip) : Chip :=
  let m := c.mseq k
  let bw := beatWordOf m w
  let c := c.setBridge k (some (frameOf (c.beatNo k) bw))
  let c := foldSig k bw (addBeats k 1 c)
  c.modMseq k (fun m => { m with since := m.since + 1, rupd := if bw.sample then BitVec.ofNat 2 w.rupd else m.rupd })

/-- One microword of microsequencer k whose SEQOP is `want`; while it has to wait, nothing happens. A ROM routine goes to a checkpoint by
CONT and to its end by END (log entry 8). -/
def microStep (k want : Nat) (c : Chip) : Chip :=
  let m := c.mseq k
  if !mseqReady c k then c
  else if m.rom.isSome then (if want = 4 then romEnd k c else if want = 1 then romCkpt k c else c)
  else if m.ending then
    (if want = 4 ∧ (c.onBridge k).isNone = true then completeRam k c else c)
  else
    let stored := csStored c k m.upc.toNat
    match csBad stored with
    | some n => csParityStop k m.upc.toNat n c
    | none =>
      let w : Mword := stored.setWidth 144
      if w.seqop ≠ want then c
      else if !microLegal m w then mwerrStop k c
      else if (w.beat && (c.onBridge k).isSome) ||
          ((w.seqop == 5 || (List.range 4).any (fun i => w.cs i == 4)) && bellPending c k) ||
          (w.seqop == 4 && (c.onBridge k).isSome) then c
      else
        let c := if w.beat then sendBeat k w c else c
        let m := microUpdate (c.mseq k) w
        let upc := match w.seqop with
          | 3 => m.mstack.headD 0
          | 4 => m.upc
          | _ => nextAddr m w
        let c := c.setMseq k
          { m with upc := upc, mstack := stackAfter m w, atCkpt := w.ckpt && w.seqop != 4, pos := m.pos + 1
                   dry := if w.beat then 0 else m.dry + 1, since := if w.ckpt then 0 else m.since }
        if w.seqop = 4 then
          (if w.beat then c.modMseq k (fun m => { m with ending := true }) else completeRam k c)
        else c

/-- RESERVED_SEQOP (R218, R232): a microword whose SEQOP is reserved stops the microsequencer. -/
def reservedSeqop (k : Nat) (c : Chip) : Chip :=
  let m := c.mseq k
  if !mseqReady c k || m.ending || m.rom.isSome then c
  else
    let stored := csStored c k m.upc.toNat
    match csBad stored with
    | some n => csParityStop k m.upc.toNat n c
    | none =>
      let w : Mword := stored.setWidth 144
      if w.seqop = 0 ∨ 5 < w.seqop then mwerrStop k c else c

/-! ### Leaving the flock (R405) -/

def allChannels : List (Nat × Nat × Nat) :=
  cores4.flatMap (fun d => (List.range 9).flatMap (fun p => (List.range 16).map (fun ch => (d, p, ch))))

/-- Step 3 of R405: once every microsequencer is held, every channel is aborted (R257, R264). -/
def leaveAbort (c : Chip) : Chip :=
  if c.pwr.target.isSome && (c.mode == modeLinked || c.mode == modeSplit) && cores4.all c.mHeld then
    allChannels.foldl (fun c x => chabort x.1 x.2.1 (BitVec.ofNat 36 (2 ^ x.2.2)) c) c
  else c

/-! ### Preemption and contexts (R227 to R231) -/

/-- A preemption request reaches the microsequencers of the flock (R227, R228). -/
def preemptRequest (k : Nat) (c : Chip) : Chip :=
  (c.flockCores k).foldl (fun c j => c.modMseq j (fun m => { m with preempt := true })) c

/-- Slots 16 to 25 as PREEMPT_TAKE_EFFECT writes them at a checkpoint (R229). -/
def contextOf (m : Mseq) : List Word :=
  [ withField (withField (withField 0 23 13 m.upc.toNat) 10 13 m.progress.toNat) 0 10 m.cnt1.toNat
  , withField (withField 0 13 13 (arOf m 1).toNat) 0 13 (arOf m 0).toNat
  , withField (withField 0 13 13 (arOf m 3).toNat) 0 13 (arOf m 2).toNat
  , withField (withField 0 13 13 (arOf m 5).toNat) 0 13 (arOf m 4).toNat
  , withField (withField 0 13 13 (arOf m 7).toNat) 0 13 (arOf m 6).toNat
  , withField (withField 0 12 12 m.bi.toNat) 0 12 m.cnt0.toNat
  , m.item.head, m.item.tail, m.item.sop.setWidth 36, (m.item.sop >>> 36).setWidth 36 ]

/-- The context of a ROM routine: its instruction and PROGRESS, and free values for the registers that its microwords would hold; RPC is
an address of the ROM and not 0 (R229; log entry 8). -/
def romContext (free : Nat) (m : Mseq) : List Word :=
  let v (i : Nat) : Nat := (Config.freeWord (free + i)).toNat
  contextOf { m with upc := BitVec.ofNat 13 (1 + v 0 % 4095), cnt1 := BitVec.ofNat 12 (v 1 % 1024)
                     ar := (List.range 8).map (fun i => BitVec.ofNat 13 (v (2 + i))), bi := BitVec.ofNat 12 (v 10), cnt0 := BitVec.ofNat 12 (v 11) }

/-- The context registers as they stand. -/
def contextSlots (c : Chip) (k : Nat) : List Word := (List.range 10).map (fun i => c.reg (pgMseq k) (16 + i))

/-- PREEMPT_TAKE_EFFECT (R227, R228): at a checkpoint with no beat under way, or at an instruction boundary. In LINKED the four
microsequencers stand at the same point. -/
def preemptTake (k : Nat) (c : Chip) : Chip :=
  -- while hub control leaves the flock, a LINKED flock of which one microsequencer counts as held is no longer aligned (R405)
  let ks := if c.pwr.target.isSome && (c.flockCores k).any c.mHeld then [k] else c.flockCores k
  let boundary := ks.all (fun j => !(c.mseq j).active)
  let point := ks.all (fun j => (c.mseq j).active && (c.mseq j).atCkpt && (c.onBridge j).isNone && !ahead c k j && !ahead c j k)
  if ks.all (fun j => (c.mseq j).preempt && !c.mHeld j && !c.mStopped j) && (boundary || point) then
    let free := c.free
    leaveAbort <| ks.foldl (fun c j =>
      let m := c.mseq j
      let ctx := if m.rom.isSome then romContext free m else contextOf m
      let c := if boundary then c.setReg (pgMseq j) 16 0
        else (ctx.zipIdx).foldl (fun c x => c.setReg (pgMseq j) (16 + x.2) x.1) c
      let c := c.setMseq j { m with preempt := false, ctxs := if boundary then m.ctxs else m.ctxs ++ [(ctx, m.rom)] }
      ((c.setFlag (pgMseq j) 3 2 true).setFlag (pgMseq j) 3 1 false).raise (pgMseq j) 1)
      (if boundary then c else { c with free := c.free + 12 })
  else c

/-- The held instruction of microsequencer k, if any, ends (R230). Its failed reads are reported (R81). -/
def discardHeld (k : Nat) (c : Chip) : Chip :=
  let m := c.mseq k
  if m.active then
    let c := match itemOp m.item with
      | some o =>
        let n := namedRegs o (itemFields m.item)
        undefRegs k (n.1, n.2.1, n.2.2.1, true, true) c
      | none => c
    let c := if m.foreign then foreignUndef k m.item c else c
    reportDerr k ((c.modMseq k (fun m => { m with active := false, rom := none, fence := false, atCkpt := false, mstack := [] })).endWork k)
  else c

/-- RESUME (R230, R231). A context that the device did not write, with an RPC in unpublished ROM, runs an unknown routine to some END. -/
def resumeHeld (k : Nat) (c : Chip) : Chip :=
  let ctx := contextSlots c k
  let s (i : Nat) : Word := ctx.getD i 0
  let rpc := fieldOf (s 0) 23 13
  let unhold (c : Chip) : Chip := c.setFlag (pgMseq k) 3 2 false
  if rpc = 0 then unhold (discardHeld k c)
  else
    let m := c.mseq k
    let ar := (List.range 4).flatMap (fun i =>
      [BitVec.ofNat 13 (fieldOf (s (1 + i)) 0 13), BitVec.ofNat 13 (fieldOf (s (1 + i)) 13 13)])
    let own := m.ctxs.reverse.find? (fun x => x.1 == ctx)
    let known := decide (4096 ≤ rpc) || [0o260, 0o1001, 0o1011, 0o1021].contains rpc
    let beats := 1 + (Config.freeWord c.free).toNat % 4096
    let c := c.setMseq k
      { m with upc := BitVec.ofNat 13 rpc, ar := ar, cnt0 := BitVec.ofNat 12 (fieldOf (s 5) 0 12)
               bi := BitVec.ofNat 12 (fieldOf (s 5) 12 12), cnt1 := BitVec.ofNat 12 (fieldOf (s 0) 0 10)
               progress := BitVec.ofNat 13 (fieldOf (s 0) 10 13), bellin := false, mstack := [], since := 0, dry := 0, pos := 0
               rom := match own with | some x => x.2 | none => if known then none else some ⟨beats, none⟩
               item := { m.item with head := s 6, tail := s 7, sop := s 9 ++ s 8 }
               active := true, fence := false, atCkpt := false, ending := false, foreign := own.isNone
               reds := m.reds.map (fun r => { r with micro := false }) }
    let c := if own.isNone then foreignUndef k (c.mseq k).item { c with free := c.free + 1 } else c
    (unhold c).setFlag (pgMseq k) 3 1 true

/-- DISCARD (R230). -/
def discardCmd (k : Nat) (c : Chip) : Chip := (discardHeld k c).setFlag (pgMseq k) 3 2 false

/-- The user planes of SAVE and RESTORE (R230). -/
def svcRange (c : Chip) (k : Nat) : Nat × Nat := (c.fld (pgMseq k) 26 0 13, 149)

/-- A command copy: for each active fold, plane copies with checked reads, then the failures (R80, R230). An armed PINJ acts on the first
plane that a fold writes (R93). -/
def copyPlanes (k : Nat) (pairs : List (Nat × Nat)) (c : Chip) : List Nat × Chip :=
  (activeFolds c k).foldl (fun (acc : List Nat × Chip) f =>
    let errs := pairs.flatMap (fun p => readErrs acc.2 f p.1 0)
    let c := pairs.foldl (fun c p => (writePlane f p.2 ((List.range 36).map (fun i =>
      (i, sliceData (acc.2.slice f p.1 i), BitVec.allOnes 36))) c).2) acc.2
    (if errs.isEmpty then acc.1 else acc.1 ++ [f], foldErrors f errs c)) ([], c)

/-- SAVE (R230). DESIGN CHOICE (log entry 8): BEATNO, which counts beats (R221), advances by its 150 beats, and BEATSIG, which belongs to
instructions (R223), does not change. -/
def saveCmd (k : Nat) (c : Chip) : Chip :=
  let b := (svcRange c k).1
  let r := copyPlanes k ((List.range 144).map (fun i => (4464 + i, b + i))) c
  let reg (j : Nat) (me : LambRow) : Word := match j with | 0 => me.c | 1 => me.f | 2 => me.x | 3 => me.t | _ => me.m
  let c := (activeFolds c k).foldl (fun c f => (List.range 5).foldl (fun c j =>
    (writePlane f (b + 144 + j) ((List.range 36).map (fun i => (i, reg j (c.lamb f i), BitVec.allOnes 36))) c).2) c) r.2
  reportFolds k r.1 (addBeats k 150 c)

/-- RESTORE (R230). DESIGN CHOICE (log entry 8): its failed reads are logged with the planes of C, F, X, T and M before the 144 scratch
planes, because the spec gives no order; BEATNO and BEATSIG as for SAVE. -/
def restoreCmd (k : Nat) (c : Chip) : Chip :=
  let b := (svcRange c k).1
  let regErrs := (activeFolds c k).filter (fun f =>
    !((List.range 5).flatMap (fun i => readErrs c f (b + 144 + i) 0)).isEmpty)
  let c := (activeFolds c k).foldl (fun c f =>
    let c := foldErrors f ((List.range 5).flatMap (fun i => readErrs c f (b + 144 + i) 0)) c
    (List.range 36).foldl (fun c i =>
      let p (j : Nat) := sliceData (c.slice f (b + 144 + j) i)
      c.setLamb f i { c := p 0, f := p 1, x := p 2, t := p 3, m := p 4 }) c) c
  let r := copyPlanes k ((List.range 144).map (fun i => (b + i, 4464 + i))) c
  reportFolds k (r.1 ++ regErrs) (addBeats k 149 r.2)

/-- A command of CTRL.CMD that has been accepted (Table 7-9), and CMD returns to 0. SAVE and RESTORE wait for reservations
on their user planes with CMD still holding them. -/
def mseqCommand (k cmd : Nat) (c : Chip) : Chip :=
  let ks := c.flockCores k
  let done (c : Chip) : Chip := c.setFld (pgMseq k) 2 0 3 0
  match cmd with
  | 1 => done (preemptRequest k c)
  | 2 => done (ks.foldl (fun c j => resumeHeld j c) c)
  | 3 => done (ks.foldl (fun c j => discardCmd j c) c)
  | 4 => if reservedFor c k [svcRange c k] then c.setFld (pgMseq k) 2 0 3 4 else done (ks.foldl (fun c j => saveCmd j c) c)
  | 5 => if reservedFor c k [svcRange c k] then c.setFld (pgMseq k) 2 0 3 5 else done (ks.foldl (fun c j => restoreCmd j c) c)
  | _ => done c

/-! ### Resets (R166, R210, R215) -/

/-- The registers of Table 7-1 are cleared. -/
def mseqClear (k : Nat) (c : Chip) : Chip :=
  let c := ((c.setMseq k { Mseq.init with csdata := (c.mseq k).csdata }).setBridge k none).dropRx k
  let c := { c with arr := { c.arr with dead := SMap.drop (fun f => foldDie f == k) c.arr.dead } }
  let c := (c.setReg (pgMseq k) 35 0).setReg (pgMseq k) 36 0
  ((c.setFlag (pgMseq k) 3 1 false).setFlag (pgMseq k) 3 2 false).endWork k

/-- A reset of the microsequencer (R210, R211, R215). -/
def mseqReset (k : Nat) (c : Chip) : Chip :=
  let c := mseqClear k c
  let c := { c with arr := { c.arr with cs := SMap.drop (fun a => a / 8192 == k) c.arr.cs } }
  let c := c.modMseq k (fun m => { m with csdata := 0 })
  let p := pgMseq k
  ((((((c.setFlag p 3 3 false).setFlag p 3 0 false).setReg p 27 0).setReg p 28 0).setReg p 34 0).setReg p 29 4096).setFlag p 9 5 false

/-- R166: the core is reset and held, its PC at RESETPC (Table 6-1); the terminal registers are empty, and the mask-stack depth is 0 on
both sides. -/
def coreReset (k : Nat) (c : Chip) : Chip :=
  let c := c.abandon (c.core k).xact
  let c := { c with cpu := { c.cpu with
      w := SMap.drop (fun x => x / 32 == k) c.cpu.w, sp := SMap.drop (fun x => x / 32 == k) c.cpu.sp
      cores := SMap.drop (fun x => x == k) c.cpu.cores }, dbg := { c.dbg with tx := SMap.drop (fun x => x == k) c.dbg.tx, rx := SMap.drop (fun x => x == k) c.dbg.rx } }
  let c := (c.setFld (pgBw k) 3 0 5 0).setPc k (c.reg (pgBw k) 16)
  c.modMseq k (fun m => { m with reds := [], voted := none, depth := 0 })

/-- A held core is released at RESETPC (R203). -/
def coreRelease (k : Nat) (c : Chip) : Chip :=
  (c.setPc k (c.reg (pgBw k) 16)).setFlag (pgBw k) 3 0 true

/-! ### Control-store load (R210, R211) -/

/-- CSSIG: the CRC-32 over the 144 data bits of words 4,096 to 8,191. -/
def csSignature (c : Chip) (k : Nat) : BitVec 32 :=
  ~~~ ((List.range 4096).foldl (fun s i => crc32Fold s ((csStored c k (4096 + i)).setWidth 144).toNat 144)
    (BitVec.allOnes 32))

/-- The write of CSDATA3 (R210). -/
def csCommit (k : Nat) (v : Word) (c : Chip) : Chip :=
  let a := c.fld (pgMseq k) 29 0 13
  let w : Mword := v ++ (c.mseq k).csdata
  (setCs k a w c).setReg (pgMseq k) 29 (BitVec.ofNat 36 (if a = 8191 then 4096 else a + 1))

/-- The end of an image load (R211). -/
def csLoaded (k : Nat) (c : Chip) : Chip :=
  (c.setFlag (pgMseq k) 3 3 true).setReg (pgMseq k) 34 ((csSignature c k).setWidth 36)

/-! ### The vote (R233, R234) -/

/-- The value held by at least three of four items, and the odd ones. -/
def majority {α : Type} [DecidableEq α] (l : List (Option α)) : Option (α × List Nat) :=
  l.findSome? (fun x => x.bind (fun v =>
    let odd := cores4.filter (fun k => decide ((l.getD k none) ≠ some v))
    if odd.length ≤ 1 then some (v, odd) else none))

/-- R234: the odd core takes the state of the reference. `keep` copies a pending coprocessor request too. -/
def resync (ref odd : Nat) (c : Chip) : Chip :=
  let regs := (List.range 32).filter (fun i => decide (1 ≤ i))
  let c := regs.foldl (fun c r => c.setW odd (BitVec.ofNat 5 r) (c.w ref (BitVec.ofNat 5 r))) c
  let c := (List.range 16).foldl (fun c i => if i = srIPEND then c else c.setSr odd i (c.sr ref i)) c
  let r := c.core ref
  let c := c.abandon (c.core odd).xact
  let c := c.setCore odd { c.core odd with resv := none, queue := r.queue, cop := r.cop, xact := Xact.none, retired := r.retired, runTo := r.runTo }
  (c.setFlag (pgBw odd) 3 3 false).setFlag (pgBw odd) 3 2 (c.flag (pgBw ref) 3 2)

/-- A vote record (Table 7-10). -/
def voteLog (kind odd : Nat) (c : Chip) : Chip :=
  c.log pgVote 17 false (withField (withField (withField 0 32 3 kind) 28 4 odd) 0 28 (fieldOf (c.beatNo 0) 0 28))

/-- The vote finds no majority (Table 7-8). -/
def voteNone (c : Chip) : Chip :=
  controlCheck 0 3 0 15 0 0 (((voteLog 4 0 c).setFld pgVote 3 0 2 2).raise pgVote 1)

/-- The odd core, if there is one, is resynchronised. -/
def voteOdd (kind : Nat) (odd : List Nat) (c : Chip) : Chip :=
  odd.foldl (fun c o =>
    let ref := (cores4.find? (fun j => !odd.contains j)).getD 0
    (((voteLog kind (2 ^ o) c).count pgVote 18 1).raise pgVote 0) |> resync ref o) c

/-- The three values of an instruction that are compared. -/
def voteItem (it : QItem) : Word × Word × Double := (it.head, it.tail, it.sop)
def voteCopKey (r : CopReq) : BitVec 4 × BitVec 14 × Word × Word × Word := (r.num, r.func, r.va, r.vb, r.vd)

/-- The vote over the array instructions at the heads of the queues. DESIGN CHOICE (log entry 22): a voted instruction with RM = 0o4 takes
the rounding mode that the reference core captured, because the vote compares only words and operand (R121, R233). -/
def voteArray (expired : Bool) (c : Chip) : Chip :=
  let heads := cores4.map (fun k => ((c.core k).queue.head?).map voteItem)
  if (c.mseq 0).voted.isSome || heads.all (fun h => h.isNone) || (!expired && heads.any (fun h => h.isNone)) then c
  else match majority heads with
    | none => voteNone c
    | some (_, odd) =>
      let ref := (cores4.find? (fun j => !odd.contains j)).getD 0
      let it := (c.core ref).queue.headD QItem.none
      let kind := if odd.any (fun o => (heads.getD o none).isNone) then 3 else 1
      let c := voteOdd kind odd c
      cores4.foldl (fun c j => c.modMseq j (fun m => { m with voted := some it })) c

/-- The vote over coprocessor requests (R193): the winner goes to the tile bound in BW0. -/
def voteCop (expired : Bool) (c : Chip) : Chip :=
  let reqs := cores4.map (fun k => ((c.core k).cop.filter (fun r => !r.sent)).map voteCopKey)
  if reqs.all (fun h => h.isNone) || (!expired && reqs.any (fun h => h.isNone)) then c
  else match majority reqs with
    | none => voteNone c
    | some (_, odd) =>
      let kind := if odd.any (fun o => (reqs.getD o none).isNone) then 3 else 2
      let c := voteOdd kind odd c
      cores4.foldl (fun c j =>
        let x := c.core j
        c.setCore j { x with cop := x.cop.map (fun r => { r with sent := true, tile := c.fld (pgBw 0) 17 0 3 }) }) c

/-- VOTE_COMPARE and VOTE_WINDOW_EXPIRY (R233); a WINDOW of 0 never ends (R17). -/
def voteStep (cop expired : Bool) (c : Chip) : Chip :=
  if c.linked && c.voteState == 1 && !(expired && c.fld pgVote 16 0 24 == 0) then (if cop then voteCop expired c else voteArray expired c) else c

end Sys2Proof.Machine
end

