-- ==== Sys2Proof/Machine/Power.lean ====
section
/-!
DEFINITION. Rails, island clocks, margins and temperature (R421 to R448).
-/
namespace Sys2Proof.Machine

/-! ### Islands (Table 15-5) -/

def Chip.island (c : Chip) (i : Nat) : Island := SMap.get (fun _ => Island.init) c.pwr.islands i
def Chip.putIsland (c : Chip) (i : Nat) (x : Island) : Chip :=
  { c with pwr := { c.pwr with islands := SMap.set (fun _ => Island.init) c.pwr.islands i x } }
def Chip.rail (c : Chip) (r : Nat) : Rail := SMap.get (fun _ => ⟨false, false, 0⟩) c.pwr.rails r
def Chip.setRail (c : Chip) (r : Nat) (x : Rail) : Chip :=
  { c with pwr := { c.pwr with rails := SMap.set (fun _ => ⟨false, false, 0⟩) c.pwr.rails r x } }

/-- The class of an island: 2 re-margined at 2.00 GHz, 1 at 1.00 GHz, 0 fixed (Table 15-2). -/
def islandClass (i : Nat) : Nat :=
  if i < 960 then 2
  else if i < 1000 then (if (i - 960) % 10 = 9 then 0 else 2)
  else if 1008 ≤ i ∧ i < 1024 then 1
  else if i = 1024 ∨ i = 1025 ∨ i = 1039 then 0
  else 2

/-- The register page that carries the island's PERTURB. -/
def islandPage (i : Nat) : Nat :=
  if i < 960 then pgFold (i / 240) (i % 240 / 24) (i % 24)
  else if i < 1000 then pgCtu ((i - 960) / 10) ((i - 960) % 10)
  else if i < 1004 then pgBw (i - 1000)
  else if i = 1004 then pgVote
  else if i < 1008 then pgDrove (i - 1005)
  else if i < 1016 then pgTile (i - 1008)
  else if i < 1024 then pgCollie (i - 1016)
  else if i < 1026 then pgPcie (i - 1024)
  else if i = 1026 then pgEvh
  else if i < 1036 then pgBank (i - 1027)
  else if i = 1036 then pgHub
  else if i = 1037 then pgGander
  else if i = 1038 then pgThonos
  else pgBoard

/-- The die of an island, 4 for HX. -/
def islandDie (i : Nat) : Nat := if i < 960 then i / 240 else if i < 1000 then (i - 960) / 10 else 4

def mfloor (i : Nat) : Nat := Config.factory 16 i % 512
def mfresh (i : Nat) : Nat := Config.factory 17 i % 512

/-- The highest step that the island may plan (R431): CLK.CAP of a fold, 16 for a tile, 24 otherwise. -/
def islandCap (c : Chip) (i : Nat) : Nat :=
  if i < 960 then c.fld (islandPage i) 32 18 5 else if 1008 ≤ i ∧ i < 1016 then 16 else 24

/-- The island's clock runs: that of a fold which holds a logical fold column or is under test (R32, R459), that of a tile or collie engine whose domain is on
(R424), and none of a fold die in QUIESCENT (R410). -/
def clocked (c : Chip) (i : Nat) : Bool :=
  !c.pwr.off &&
  (if i < 1000 then c.mode != modeQuiescent && (decide (960 ≤ i) || c.flag (islandPage i) 16 18 || c.flag pgFlock 3 0)
   else if 1008 ≤ i ∧ i < 1016 then !tileOff c (i - 1008)
   else if 1016 ≤ i ∧ i < 1024 then !colOff c (i - 1016)
   else true)

def Island.half (x : Island) : Bool := !x.hsup.isEmpty || x.trip || x.exh || x.thold

/-- The margin in 1/512 of a cycle at `num / 160` of F_nom, for a replica delay of `d / 2^20` of a nominal cycle, rounded down
and held at 0 (R438). -/
def marginAt (d num den : Nat) : Nat := (512 * den * 2 ^ 20 - 512 * d * num) / (den * 2 ^ 20)
/-- At step i: F_nom × (0.90 + 0.00625 i). -/
def marginStep (d i : Nat) : Nat := marginAt d (144 + i) 160

/-- The step of R443 under PERTURB: PLAN + CLKOFS within 0 to 24, CAP and the floor. -/
def perturbedStep (c : Chip) (i : Nat) (d : Option Nat) : Nat :=
  let w := SMap.get (fun _ => 0) c.pwr.pert (islandPage i)
  let x := c.island i
  let ofs := signedOf 6 (fieldOf w 18 6)
  let want := ((x.plan : Int) + ofs).toNat
  let top := min (min want 24) (islandCap c i)
  match d with
  | some d => ((List.range (top + 1)).reverse.find? (fun s => decide (mfloor i ≤ marginStep d s))).getD 0
  | none => top

/-- The step that Table 15-3 decides while the island is not at half clock. -/
def targetStep (c : Chip) (i : Nat) : Nat :=
  let x := c.island i
  let w := SMap.get (fun _ => 0) c.pwr.pert (islandPage i)
  match x.tstep with
  | some t => t
  | none =>
    if bitAt w 35 && fieldOf w 18 6 != 0 then
      perturbedStep c i (if x.seen then some x.delay else none)
    else x.plan

/-- A change of an island, with HALF of a fold that enters half clock (Table 15-4). -/
def setIsland (i : Nat) (x : Island) (c : Chip) : Chip :=
  let was := (c.island i).half
  let c := c.putIsland i x
  if x.half && !was && decide (i < 960) && clocked c i then c.raise (islandPage i) 8 else c

/-- PLL_LOCK (R432): the step moves one step toward the decided one. -/
def pllLock (i : Nat) (c : Chip) : Chip :=
  let x := c.island i
  let t := targetStep c i
  if islandClass i = 0 ∨ clocked c i = false then c
  else setIsland i { x with step := if x.step < t then x.step + 1 else if t < x.step then x.step - 1 else x.step } c

/-- PERTURB_APPLY (R55). -/
def perturbApply (p : Nat) (c : Chip) : Chip :=
  { c with pwr := { c.pwr with pert := SMap.set (fun _ => 0) c.pwr.pert p (c.reg p 8) } }

/-! ### Rails (R421 to R428) -/

/-- The islands that a rail's warning steps to half clock (Table 15-1). -/
def railIslands (r : Nat) : List Nat :=
  ((List.range 1040).filter (fun i => decide (islandClass i ≠ 0))).filter (fun i =>
    if r < 4 then islandDie i == r else if r = 4 then islandDie i == 4 else r == 5)

/-- SUPPLY_DIP_BEGIN (R425, R426). An island without a clock takes the cause too, and starts at half clock if the dip still lasts. -/
def dipBegin (r : Nat) (c : Chip) : Chip :=
  if 14 ≤ r then c
  else
    let fresh := !(c.rail r).dip
    let c := c.setRail r ⟨true, false, 0⟩
    let c := (railIslands r).foldl (fun c i =>
      let x := c.island i
      if x.hsup.contains r then c else setIsland i { x with hsup := x.hsup ++ [r] } c) c
    let c := c.setFlag pgAon 19 r true
    if fresh then c.raise pgAon 0 else c

/-- The log of a dip of minimum `mv` and duration `dur` (R427). -/
def dipLog (r mv dur : Nat) (c : Chip) : Chip :=
  let b := 33 + 2 * r
  let worst := c.fld pgAon b 24 12
  let c := (c.setFld pgAon (32 + 2 * r) 24 12 mv).setFld pgAon (32 + 2 * r) 0 24 (min dur (2 ^ 24 - 1))
  let c := c.setFld pgAon b 24 12 (if c.fld pgAon b 0 24 = 0 then mv else min worst mv)
  c.satAdd pgAon b 0 24 1

/-- SUPPLY_DIP_END (R426, R427): the rail stands at or above 96 % again. -/
def dipEnd (r mv dur : Nat) (c : Chip) : Chip :=
  let x := c.rail r
  if x.dip && !x.ended then dipLog r mv dur (c.setRail r { x with ended := true, group := 0 }) else c

/-- CLOCK_RAMP_GROUP (R426): the next group of the rail leaves half clock. -/
def rampGroup (r : Nat) (c : Chip) : Chip :=
  let x := c.rail r
  if x.dip && x.ended then
    let c := ((railIslands r).filter (fun i => i % 8 == x.group)).foldl (fun c i =>
      let y := c.island i
      setIsland i { y with hsup := y.hsup.filter (fun q => q != r) } c) c
    if x.group = 7 then ((c.setRail r ⟨false, false, 0⟩).setFlag pgAon 19 r false).raise pgAon 1
    else c.setRail r { x with group := x.group + 1 }
  else c

/-! ### Temperature (R434 to R437) -/

def degrees (t : BitVec 8) : Int := t.toInt

/-- The hottest island and its reading, the lowest index first. -/
def hottest (c : Chip) : BitVec 8 × Nat :=
  (List.range 1040).foldl (fun (x : BitVec 8 × Nat) i =>
    let t := (c.island i).temp
    if degrees x.1 < degrees t then (t, i) else x) ((c.island 0).temp, 0)

/-- One reading of a sensor; a fold in use shows it in QUIESCENT's wake too, because the thermal monitor reads in every mode (R434). -/
def readSensor (i : Nat) (t : BitVec 8) (c : Chip) : Chip :=
  let x := c.island i
  let c := c.putIsland i { x with temp := t, tmax := if degrees x.tmax < degrees t then t else x.tmax }
  if i < 960 ∧ c.pwr.off = false ∧ (c.flag (islandPage i) 16 18 || c.flag pgFlock 3 0) = true then
    let p := islandPage i
    let old := BitVec.ofNat 8 (c.fld p 34 8 8)
    let c := c.setFld p 34 0 8 t.toNat
    if degrees old < degrees t then c.setFld p 34 8 8 t.toNat else c
  else c

/-- THERMAL_SAMPLE (R434, R437, R518): the readings that changed, by island. -/
def thermalSample (rs : List (Nat × BitVec 8)) (c : Chip) : Chip :=
  let before := degrees (BitVec.ofNat 8 (c.fld pgAon 21 20 8))
  let limit := degrees (BitVec.ofNat 8 (c.fld pgAon 21 28 8))
  let c := rs.foldl (fun c r => if r.1 < 1040 then readSensor r.1 r.2 c else c) c
  let h := hottest c
  let c := (c.setFld pgAon 21 20 8 h.1.toNat).setFld pgAon 21 0 11 h.2
  let now := degrees h.1
  let c := if before < limit ∧ limit ≤ now then c.raise pgAon 3 else c
  let tripHeld := c.pwr.off && c.pwr.causes.contains 3 && decide (95 ≤ now)
  { c with pins := { c.pins with alert :=
      if limit ≤ now then true else if now ≤ limit - 2 then tripHeld else c.pins.alert } }

/-- THROTTLE_STEP (R435) of one island. -/
def throttleStep (i : Nat) (c : Chip) : Chip :=
  let x := c.island i
  let t := degrees x.temp
  let start (c : Chip) : Chip :=
    let c := c.raise pgAon 2
    if i < 960 then c.raise (islandPage i) 9 else c
  if islandClass i = 0 ∨ clocked c i = false then c
  else if x.thold then
    (if t ≤ 97 then setIsland i { x with thold := false, rising := true } c else c)
  else if 100 ≤ t then
    match x.tstep with
    | some 0 => if 103 ≤ t then setIsland i { x with thold := true, rising := false } c
                else setIsland i { x with rising := false } c
    | some s => setIsland i { x with tstep := some (s - 1), rising := false } c
    | none => start (setIsland i { x with tstep := some (x.step - 1), rising := false } c)
  else match x.tstep with
    | none => c
    | some s =>
      if x.rising || decide (t ≤ 97) then
        (if x.plan ≤ s + 1 then setIsland i { x with tstep := none, rising := false } c
         else setIsland i { x with tstep := some (s + 1), rising := true } c)
      else c

/-! ### Margin (R438 to R443) -/

/-- The re-margined island with the least remaining margin of those measured (R442). -/
def worstIsland (c : Chip) : Nat × Nat :=
  (c.pwr.islands.filter (fun e => e.2.seen && decide (islandClass e.1 ≠ 0))).foldl
    (fun (x : Nat × Nat) e => if e.2.m2g - mfloor e.1 < x.1 then (e.2.m2g - mfloor e.1, e.1) else x) (511, 0)

/-- The plan that a measurement gives: the highest step whose margin reaches MFLOOR + GUARD (R439). -/
def planFor (c : Chip) (i d : Nat) : Option Nat :=
  (List.range (min 24 (islandCap c i) + 1)).reverse.find? (fun s =>
    decide (mfloor i + c.fld pgAon 25 0 9 ≤ marginStep d s))

/-- The fold fault or corner-turn fault of an exhausted island of a fold die (R440, Table 16-3). -/
def exhaustedFault (i : Nat) (c : Chip) : Chip :=
  if i < 960 then dataCheck (i / 240) 2 (i / 240) (i % 240 / 24) (i % 24) (c.raise (islandPage i) 10)
  else if i < 1000 then
    let p := (i - 960) % 10
    dataCheck (islandDie i) 2 (islandDie i) ((c.dieCols (islandDie i)).getD p 15) 0 c
  else c

/-- DELAY_MEASUREMENT (R438 to R440): a completed measurement of `d / 2^20` of a nominal cycle. -/
def measure (i d : Nat) (c : Chip) : Chip :=
  let x := c.island i
  let m2g := min 511 (marginStep d 16)
  let now := min 511 (if islandClass i = 0 then marginStep d 16
    else if x.half then marginAt d (144 + x.step) 320 else marginStep d x.step)
  let x := { x with delay := d, m2g := m2g, mnow := now, m2gmin := if x.seen then min x.m2gmin m2g else m2g, seen := true }
  if !clocked c i then c
  else if islandClass i = 0 then
    let c := setIsland i x c
    if now < mfloor i then c.raise pgAon 4 else c
  else
    let c := match planFor c i d with
      | none =>
        let c' := setIsland i { x with plan := 0, up := 0, exh := true, trip := x.trip } c
        if x.exh then c' else exhaustedFault i (c'.raise pgAon 4)
      | some p =>
        let y := if p < x.plan then { x with plan := p, up := 0 }
          else if x.plan < p then (if 511 ≤ x.up then { x with plan := x.plan + 1, up := 0 } else { x with up := x.up + 1 })
          else { x with up := 0 }
        setIsland i { y with exh := false, trip := x.trip && !x.half } c
    let w := worstIsland c
    c.setReg pgAon 26 (withField (withField 0 27 9 w.1) 0 11 w.2)

/-- FLOOR_TRIP (R440): MNOW has fallen below MFLOOR. -/
def floorTrip (i : Nat) (c : Chip) : Chip :=
  if islandClass i = 0 then c.raise pgAon 4
  else if clocked c i then setIsland i { c.island i with trip := true } c
  else c

/-- MTDATA0 and MTDATA1 (Table 15-6). -/
def marginEntry (c : Chip) (i w : Nat) : Word :=
  let x := c.island i
  if w = 0 then
    withField (withField (withField (withField (withField (withField 0 27 9 x.m2g) 18 9 x.m2gmin) 13 5
      (if islandClass i = 0 then 0 else x.plan)) 12 1 x.half.toNat) 11 1 x.exh.toNat) 0 8 x.temp.toNat
  else withField (withField (withField 0 27 9 (mfresh i)) 18 9 (mfloor i)) 10 8 x.tmax.toNat

/-- FOLD.CLK and FOLD.MARGIN as they read (Table 15-4). -/
def foldClk (c : Chip) (i : Nat) : Word :=
  let x := c.island i
  withField (withField (withField (withField (withField (withField 0 18 5 (islandCap c i)) 13 5 x.plan) 8 5 x.step) 2 1
    (!x.hsup.isEmpty).toNat) 1 1 x.thold.toNat) 0 1 (x.trip || x.exh).toNat
def foldMargin (c : Chip) (i : Nat) : Word :=
  let x := c.island i
  withField (withField (withField (withField 0 27 9 x.mnow) 18 9 x.m2g) 9 9 (mfloor i)) 0 9 (mfresh i)

/-- Every island changed in one way. -/
def mapIslands (f : Island → Island) (c : Chip) : Chip :=
  { c with pwr := { c.pwr with islands := (c.pwr.islands.map (fun e => (e.1, f e.2))).filter (fun e => decide (e.2 ≠ Island.init)) } }

/-- The islands in OFF: only what the margin table and the rails hold of them lasts (R441). -/
def islandsOff (c : Chip) : Chip :=
  let c := mapIslands (fun x => { x with step := 0, tstep := none, rising := false, thold := false, trip := false, up := 0 }) c
  { c with pwr := { c.pwr with pert := [] } }
/-- The islands as BOOT starts their clocks: at the PLAN of the margin table less 4 steps, which is 0 after POR (R441). -/
def islandsStart (c : Chip) : Chip := mapIslands (fun x => { x with step := x.plan - 4, plan := x.plan - 4 }) c

end Sys2Proof.Machine
end

