-- ==== Sys2Proof/Machine/Crypto.lean ====
section
/-!
DEFINITION. The cryptography of R18: SHA-384 (FIPS 180-4) and the verification of an ECDSA signature (FIPS 186-5) over brainpoolP384r1
(RFC 5639), in the forms of Thonos (R466). PRESUMED from those standards (log entry 13).
-/
namespace Sys2Proof.Machine

/-! ### SHA-384 -/

def rotr (x : BitVec 64) (n : Nat) : BitVec 64 := x.rotateRight n
def bigSigma0 (x : BitVec 64) : BitVec 64 := rotr x 28 ^^^ rotr x 34 ^^^ rotr x 39
def bigSigma1 (x : BitVec 64) : BitVec 64 := rotr x 14 ^^^ rotr x 18 ^^^ rotr x 41
def smallSigma0 (x : BitVec 64) : BitVec 64 := rotr x 1 ^^^ rotr x 8 ^^^ (x >>> 7)
def smallSigma1 (x : BitVec 64) : BitVec 64 := rotr x 19 ^^^ rotr x 61 ^^^ (x >>> 6)

def shaK0 : List (BitVec 64) :=
  [0x428a2f98d728ae22, 0x7137449123ef65cd, 0xb5c0fbcfec4d3b2f, 0xe9b5dba58189dbbc, 0x3956c25bf348b538, 0x59f111f1b605d019,
   0x923f82a4af194f9b, 0xab1c5ed5da6d8118, 0xd807aa98a3030242, 0x12835b0145706fbe, 0x243185be4ee4b28c, 0x550c7dc3d5ffb4e2,
   0x72be5d74f27b896f, 0x80deb1fe3b1696b1, 0x9bdc06a725c71235, 0xc19bf174cf692694]
def shaK1 : List (BitVec 64) :=
  [0xe49b69c19ef14ad2, 0xefbe4786384f25e3, 0x0fc19dc68b8cd5b5, 0x240ca1cc77ac9c65, 0x2de92c6f592b0275, 0x4a7484aa6ea6e483,
   0x5cb0a9dcbd41fbd4, 0x76f988da831153b5, 0x983e5152ee66dfab, 0xa831c66d2db43210, 0xb00327c898fb213f, 0xbf597fc7beef0ee4,
   0xc6e00bf33da88fc2, 0xd5a79147930aa725, 0x06ca6351e003826f, 0x142929670a0e6e70]
def shaK2 : List (BitVec 64) :=
  [0x27b70a8546d22ffc, 0x2e1b21385c26c926, 0x4d2c6dfc5ac42aed, 0x53380d139d95b3df, 0x650a73548baf63de, 0x766a0abb3c77b2a8,
   0x81c2c92e47edaee6, 0x92722c851482353b, 0xa2bfe8a14cf10364, 0xa81a664bbc423001, 0xc24b8b70d0f89791, 0xc76c51a30654be30,
   0xd192e819d6ef5218, 0xd69906245565a910, 0xf40e35855771202a, 0x106aa07032bbd1b8]
def shaK3 : List (BitVec 64) :=
  [0x19a4c116b8d2d0c8, 0x1e376c085141ab53, 0x2748774cdf8eeb99, 0x34b0bcb5e19b48a8, 0x391c0cb3c5c95a63, 0x4ed8aa4ae3418acb,
   0x5b9cca4f7763e373, 0x682e6ff3d6b2b8a3, 0x748f82ee5defb2fc, 0x78a5636f43172f60, 0x84c87814a1f0ab72, 0x8cc702081a6439ec,
   0x90befffa23631e28, 0xa4506cebde82bde9, 0xbef9a3f7b2c67915, 0xc67178f2e372532b]
def shaK4 : List (BitVec 64) :=
  [0xca273eceea26619c, 0xd186b8c721c0c207, 0xeada7dd6cde0eb1e, 0xf57d4f7fee6ed178, 0x06f067aa72176fba, 0x0a637dc5a2c898a6,
   0x113f9804bef90dae, 0x1b710b35131c471b, 0x28db77f523047d84, 0x32caab7b40c72493, 0x3c9ebe0a15c9bebc, 0x431d67c49c100d4c,
   0x4cc5d4becb3e42b6, 0x597f299cfc657e2a, 0x5fcb6fab3ad6faec, 0x6c44198c4a475817]
/-- The 80 constants: the fractions of the cube roots of the first 80 primes. -/
def shaK : List (BitVec 64) := shaK0 ++ shaK1 ++ shaK2 ++ shaK3 ++ shaK4
/-- The initial hash value of SHA-384. -/
def shaInit : List (BitVec 64) :=
  [0xcbbb9d5dc1059ed8, 0x629a292a367cd507, 0x9159015a3070dd17, 0x152fecd8f70e5939, 0x67332667ffc00b31, 0x8eb44a8768581511,
   0xdb0c2e0d64f98fa7, 0x47b5481dbefa4fa4]

/-- Octets of a number of `n` octets, the most significant first. -/
def beOctets (n v : Nat) : List Octet := (List.range n).map (fun i => BitVec.ofNat 8 (v / 2 ^ (8 * (n - 1 - i))))
/-- The number that octets spell, the most significant first. -/
def beNat (l : List Octet) : Nat := l.foldl (fun v o => v * 256 + o.toNat) 0

/-- The padded message: a one bit, zeros, and the length in bits. -/
def shaPad (m : List Octet) : List Octet :=
  m ++ [0x80] ++ List.replicate ((239 - m.length % 128) % 128) 0 ++ beOctets 16 (8 * m.length)

/-- The message schedule of a block, the last word first. -/
def shaSchedule (b : List Octet) : List (BitVec 64) :=
  let w := (List.range 16).map (fun i => BitVec.ofNat 64 (beNat ((b.drop (8 * i)).take 8)))
  (List.range 64).foldl (fun r _ =>
    (smallSigma1 (r.getD 1 0) + r.getD 6 0 + smallSigma0 (r.getD 14 0) + r.getD 15 0) :: r) w.reverse

/-- One round. -/
def shaRound (s : List (BitVec 64)) (kw : BitVec 64 × BitVec 64) : List (BitVec 64) :=
  match s with
  | [a, b, c, d, e, f, g, h] =>
    let t1 := h + bigSigma1 e + ((e &&& f) ^^^ (~~~e &&& g)) + kw.1 + kw.2
    let t2 := bigSigma0 a + ((a &&& b) ^^^ (a &&& c) ^^^ (b &&& c))
    [t1 + t2, a, b, c, d + t1, e, f, g]
  | _ => s

def shaBlock (s : List (BitVec 64)) (b : List Octet) : List (BitVec 64) :=
  List.zipWith (fun x y => x + y) s ((shaK.zip (shaSchedule b).reverse).foldl shaRound s)

/-- SHA-384: 48 octets. -/
@[irreducible] def sha384 (m : List Octet) : List Octet :=
  let p := shaPad m
  let s := (List.range (p.length / 128)).foldl (fun s i => shaBlock s ((p.drop (128 * i)).take 128)) shaInit
  (s.take 6).flatMap (fun w => beOctets 8 w.toNat)

/-! ### ECDSA over brainpoolP384r1 -/

def ecP : Nat := 0x8cb91e82a3386d280f5d6f7e50e641df152f7109ed5456b412b1da197fb71123acd3a729901d1a71874700133107ec53
def ecA : Nat := 0x7bc382c63d8c150c3c72080ace05afa0c2bea28e4fb22787139165efba91f90f8aa5814a503ad4eb04a8c7dd22ce2826
def ecB : Nat := 0x4a8c7dd22ce28268b39b55416f0447c2fb77de107dcd2a62e880ea53eeb62d57cb4390295dbc9943ab78696fa504c11
def ecN : Nat := 0x8cb91e82a3386d280f5d6f7e50e641df152f7109ed5456b31f166e6cac0425a7cf3ab6af6b7fc3103b883202e9046565
def ecGx : Nat := 0x1d1c64f068cf45ffa2a63a81b7c13f6b8847a3e77ef14fe3db7fcafe0cbd10e8e826e03436d646aaef87b2e247d4af1e
def ecGy : Nat := 0x8abe1d7520f9c2a45cb1eb8e95cfd55262b70b29feec5864e19c054ff99129280e4646217791811142820341263c5315

/-- `b` to the power `e` modulo `m`, for an exponent of at most `fuel` bits. -/
def powMod (m : Nat) : Nat → Nat → Nat → Nat
  | 0, _, _ => 1
  | fuel + 1, b, e => let r := powMod m fuel (b * b % m) (e / 2); if e % 2 = 1 then b * r % m else r
/-- The inverse modulo a prime of 384 bits. -/
def invMod (m a : Nat) : Nat := powMod m 384 (a % m) (m - 2)
def subMod (m a b : Nat) : Nat := (a + (m - b % m)) % m

/-- The sum of two points of the curve; nothing is the point at infinity. -/
def ecAdd (x y : Option (Nat × Nat)) : Option (Nat × Nat) :=
  match x, y with
  | none, q => q
  | q, none => q
  | some (x1, y1), some (x2, y2) =>
    if x1 = x2 ∧ (y1 + y2) % ecP = 0 then none
    else
      let l := if x1 = x2 then (3 * x1 * x1 + ecA) * invMod ecP (2 * y1) % ecP
        else subMod ecP y2 y1 * invMod ecP (subMod ecP x2 x1) % ecP
      let x3 := subMod ecP (l * l) (x1 + x2)
      some (x3, subMod ecP (l * subMod ecP x1 x3) y1)
/-- The multiple of a point by a number of at most `fuel` bits. -/
def ecMul : Nat → Nat → Option (Nat × Nat) → Option (Nat × Nat)
  | 0, _, _ => none
  | fuel + 1, k, q =>
    let r := ecMul fuel (k / 2) (ecAdd q q)
    if k % 2 = 1 then ecAdd q r else r

/-- A public key of 97 octets names a point of the curve. -/
def ecPoint (pub : List Octet) : Option (Nat × Nat) :=
  let x := beNat ((pub.drop 1).take 48)
  let y := beNat ((pub.drop 49).take 48)
  if pub.length = 97 ∧ pub.headD 0 = 0x04 ∧ x < ecP ∧ y < ecP ∧ y * y % ecP = (x * x * x + ecA * x + ecB) % ecP then some (x, y) else none

/-- The signature r, s of 96 octets verifies over a digest of 48 octets. -/
@[irreducible] def ecdsaOk (pub digest sig : List Octet) : Bool :=
  match ecPoint pub with
  | none => false
  | some q =>
    let r := beNat (sig.take 48)
    let s := beNat ((sig.drop 48).take 48)
    let w := invMod ecN s
    if r = 0 ∨ ecN ≤ r ∨ s = 0 ∨ ecN ≤ s then false
    else match ecAdd (ecMul 384 (beNat digest * w % ecN) (some (ecGx, ecGy))) (ecMul 384 (r * w % ecN) (some q)) with
      | none => false
      | some v => v.1 % ecN == r

end Sys2Proof.Machine
end

