-- ==== Sys2Proof/Machine/Security.lean ====
section
/-!
DEFINITION. Thonos: fuses, images, slot verification, debug authorisation state, tamper (R466 to R487).
The identity key's signatures and the entropy source are opaque functions of Config (log entry 13).
-/
namespace Sys2Proof.Machine

/-! ### Events of the THONOS page, by bit (log entry 13) -/
def tvReject : Nat := 0
def tvSlotDiff : Nat := 1
def tvCmdDone : Nat := 2
def tvDbgUnlock : Nat := 3
def tvLockout : Nat := 4
def tvTamper : Nat := 5

/-! ### Fuses (Table 17-1) -/

def octets (n : Nat) (f : Nat → Nat) : List Octet := (List.range n).map (fun i => BitVec.ofNat 8 (f i))
def devId : List Octet := octets 16 (Config.factory 0)
def romDigest : List Octet := octets 48 (Config.factory 1)
def identityKey : List Octet := octets 97 (Config.factory 18)
def pwdHash : List Octet := octets 48 (Config.factory 12)

/-- LCS, ARC. -/
def lcsOf (c : Chip) : Nat := c.sec.lcs.getD (Config.factory 13 0 % 6)
def arcOf (c : Chip) : Nat := c.sec.arc.getD (Config.factory 14 0 % 65)

/-- The hash of key slot s (0 to 5), or of debug slot s − 8 (8 to 11). -/
def hashOf (c : Chip) (s : Nat) : List Octet :=
  match SMap.get (fun _ => []) c.sec.hashes s with
  | [] => octets 48 (Config.factory (if s < 6 then 2 + s else s))
  | h => h
/-- A slot whose fuses are all zero is unwritten (R466). -/
def written (c : Chip) (s : Nat) : Bool := (hashOf c s).any (fun x => x != 0)
def revoked (c : Chip) (s : Nat) : Bool := c.sec.revoke.getLsbD s

/-- The image key slots that a lifecycle state accepts (Table 17-5). -/
def keyAccepted (lcs s : Nat) : Bool :=
  match lcs with
  | 0 => true
  | 1 | 4 => decide (s < 4)
  | 2 | 3 => decide (s < 6)
  | _ => false
/-- The debug slots whose key unlocks debug (Table 17-5). -/
def debugAccepted (c : Chip) (s : Nat) : Bool :=
  match lcsOf c with
  | 1 | 4 => decide (s < 2)
  | 2 => true
  | 3 => decide (2 ≤ s) && !c.sec.dbgDeny
  | _ => false

/-! ### Images (R468 to R471) -/

/-- An image as a reader of its octets. -/
abbrev Image := Nat → Octet
def rd (im : Image) (o n : Nat) : List Octet := (List.range n).map (fun i => im (o + i))
/-- A little-endian integer (R8). -/
def le (l : List Octet) : Nat := l.foldr (fun b acc => acc * 256 + b.toNat) 0
def leAt (im : Image) (o n : Nat) : Nat := le (rd im o n)
def zeros (l : List Octet) : Bool := l.all (fun x => x == 0)

/-- The slot of a flash slot: A (0) or B (1) (R467). -/
def flashImage (c : Chip) (slot : Nat) : Image := fun o => SMap.get (fun _ => 0xFF) c.sec.flash (slot * 0x800000 + o)

structure Sect where
  kind : Nat
  off : Nat
  len : Nat
deriving DecidableEq, Repr

/-- The section entries (Table 17-3). -/
def sections (im : Image) : List Sect :=
  (List.range (min 8 (im 7).toNat)).map (fun i =>
    let e := 0xA0 + 64 * i
    { kind := (im e).toNat, off := leAt im (e + 4) 4, len := leAt im (e + 8) 4 })
def sectOf (im : Image) (kind : Nat) : Option Sect := (sections im).find? (fun s => s.kind == kind)
def imgLen (im : Image) : Nat := leAt im 0x10 4

/-- The layout rules of R468 and R470. -/
def formatOk (im : Image) : Bool :=
  let ss := sections im
  let settings := match sectOf im 2 with
    | none => true
    | some s => s.len == 0 || (s.len == 16 &&
        (let b := rd im s.off 16
         (b.headD 0 &&& 0xFE) == 0 && (b.getD 1 0 &&& 0xFE) == 0 && zeros (b.drop 2)))
  leAt im 4 2 == 1 && decide ((im 6).toNat ≤ 5) && decide ((im 7).toNat ≤ 8) && decide ((im 8).toNat ≤ 64) &&
  decide ((im 9).toNat ≤ 3) && zeros (rd im 0xA 6) && zeros (rd im 0x14 12) && zeros (rd im 0x81 31) &&
  decide (0x300 ≤ imgLen im) && decide (imgLen im ≤ 0x400000) &&
  (List.range 8).all (fun i => decide (i < (im 7).toNat) || zeros (rd im (0xA0 + 64 * i) 64)) &&
  (List.range ss.length).all (fun i =>
    let e := 0xA0 + 64 * i
    let s := ss.getD i ⟨0, 0, 0⟩
    decide (1 ≤ s.kind) && decide (s.kind ≤ 3) && zeros (rd im (e + 1) 3) && zeros (rd im (e + 12) 4) &&
    s.off % 64 == 0 && decide (0x300 ≤ s.off) && decide (s.off + s.len ≤ imgLen im) &&
    (List.range ss.length).all (fun j =>
      let t := ss.getD j ⟨0, 0, 0⟩
      i == j || (s.kind != t.kind && (s.len == 0 || t.len == 0 || decide (s.off + s.len ≤ t.off) || decide (t.off + t.len ≤ s.off))))) &&
  settings

def headerDigest (im : Image) : List Octet := sha384 (rd im 0 0x2A0)

/-- The key check of R471 for image slot `s` and a public key. -/
def keyOk (c : Chip) (s : Nat) (pub : List Octet) : Bool :=
  written c s && !revoked c s && keyAccepted (lcsOf c) s && sha384 pub == hashOf c s

/-- The first failing check of Table 17-4 for an image; 0 when it is valid. -/
def imageCode (c : Chip) (im : Image) (readOk : Bool) : Nat :=
  if !readOk || (rd im 0 0x300).all (fun x => x == 0xFF) || leAt im 0 4 != 0x72365A17 then 0o10
  else if !formatOk im then 0o03
  else if !keyOk c (im 6).toNat (rd im 0x20 97) then 0o04
  else if !ecdsaOk (rd im 0x20 97) (headerDigest im) (rd im 0x2A0 96) then 0o05
  else if (im 8).toNat < arcOf c then 0o06
  else if ((sections im).zipIdx).any (fun s => sha384 (rd im s.1.off s.1.len) != rd im (0xA0 + 64 * s.2 + 16) 48) then 0o07
  else 0

/-- The slot that boots (R472), with the codes of both slots and whether they differ at equal ARV. -/
def chooseSlot (c : Chip) (okA okB : Bool) : Option Nat × List Nat × Bool :=
  let a := flashImage c 0
  let b := flashImage c 1
  let ca := imageCode c a okA
  let cb := imageCode c b okB
  let pick := if ca = 0 ∧ cb = 0 then some (if (a 8).toNat < (b 8).toNat then 1 else 0)
    else if ca = 0 then some 0 else if cb = 0 then some 1 else none
  (pick, [ca, cb], ca == 0 && cb == 0 && a 8 == b 8 && headerDigest a != headerDigest b)

/-- The REDIR words and the microwords of a MICROCODE section (R469); nothing when its length is refused. -/
def microcode (im : Image) : Option (Word × Word × (Nat → BitVec 144)) :=
  match sectOf im 1 with
  | none => some (0, 0, fun _ => 0)
  | some s =>
    if s.len = 0 then some (0, 0, fun _ => 0)
    else if s.len = 73736 then
      let r := leAt im s.off 8
      some (BitVec.ofNat 36 r, BitVec.ofNat 36 (r / 2 ^ 36), fun i => BitVec.ofNat 144 (leAt im (s.off + 8 + 18 * i) 18))
    else none

/-! ### Debug and tamper state (R484 to R486) -/

def dbgOpen (c : Chip) : Bool := c.flag pgThonos 3 14
def tamperActive (c : Chip) : Bool := !c.sec.active.isEmpty

/-- STAT as it reads (Table 17-6): LCS and ARC come from the fuses; in BLANK debug is always open. -/
def thonosStat (c : Chip) : Word :=
  let w := withField (withField (withField (c.reg pgThonos 3) 15 3 (lcsOf c)) 5 7 (arcOf c)) 13 1 (tamperActive c).toNat
  if lcsOf c = 0 then withField w 14 1 1 else w

/-- The secure bank is wiped; a Thonos write that it holds is discarded (R289). -/
def secureWipe (c : Chip) : Chip :=
  let c := (c.bankClear 7).setFlag (pgBank 7) 3 2 true
  let c := { c with mem := { c.mem with held := c.mem.held.filter (fun x => !(x.1 == 7 && x.2.1.any (fun (a : BankAcc) => !a.isRead))) } }
  (c.setReg (pgBank 7) 17 0).setFlag (pgBank 7) 3 1 false

/-- The wake of a bank's storage (R288); the secure bank is wiped too (R289). -/
def bankWake (b : Nat) (c : Chip) : Chip :=
  let c := ((c.bankClear b).setFld (pgBank b) 3 3 2 0).setFlag (pgBank b) 3 0 true
  if b = 7 then secureWipe c else c

/-- The end of the wipe (R289). -/
def wipeDone (c : Chip) : Chip :=
  if bankWiping c 7 then bankRelease 7 ((c.setFlag (pgBank 7) 3 2 false).raise (pgBank 7) 4) else c

end Sys2Proof.Machine
end

