-- ==== Sys2Proof/Machine/Modes.lean ====
section
/-!
DEFINITION. Modes, flock formation, device resets, BOOT and the repair map (R26 to R32, R401 to R420, R459, R487).
-/
namespace Sys2Proof.Machine

/-! ### Core resets that are recorded (R414, Table 14-7) -/

/-- A core reset with its cause in HUB.CORERST: 1 RUN := 0, 2 watchdog bite, 3 formation. -/
def coreResetBy (k cause : Nat) (c : Chip) : Chip :=
  let c := coreReset k c
  ((c.satAdd pgHub 22 (9 * k + 3) 6 1).setFld pgHub 22 (9 * k) 3 cause).raise pgHub 4

/-! ### The repair map (R26, R31, R535) -/

/-- Physical columns of die k that a map leaves healthy, from the west. -/
def healthy (m : BitVec 40) (k : Nat) : List Nat := (List.range 10).filter (fun x => !m.getLsbD (10 * k + x))
/-- The physical columns that hold logical columns 0 to 8 (R26). -/
def mapCols (m : BitVec 40) (k : Nat) : List Nat := (healthy m k).take 9
/-- The map in use, from the FAILMAPs. -/
def mapInUse (c : Chip) : BitVec 40 :=
  cores4.foldl (fun m k => m ||| (BitVec.ofNat 40 (c.fld (pgDie k) 17 0 10) <<< (10 * k))) 0

/-- The FOLD pages of folds whose islands go off: every field but GEOM is at reset, and their event levels are 0 (R32, R395, R535). -/
def foldsOff (ps : List Nat) (c : Chip) : Chip :=
  levelsOff ps { c with regs := SMap.drop (fun key => key % 512 != 16 && ps.contains (key / 512)) c.regs }

/-- A map becomes the map in use: COLMAP, FAILMAP, GEOM, POS and NOCOL are loaded (R31, R92, R239, R535). A column that it takes out of
use goes off (R32). -/
def applyMap (m : BitVec 40) (c : Chip) : Chip :=
  cores4.foldl (fun c k =>
    let cols := mapCols m k
    let c := foldsOff (((c.dieCols k).filter (fun x => !cols.contains x)).flatMap (fun x => (List.range 24).map (fun y => pgFold k x y))) c
    let c := c.setReg (pgDie k) 16 ((List.range 9).foldl (fun w p => withField w (4 * p) 4 (cols.getD p 15)) 0)
    let c := c.setReg (pgDie k) 17 (BitVec.ofNat 36 ((m >>> (10 * k)).toNat % 1024))
    let c := c.setFld pgFlock 16 (4 * k) 4 cols.length
    let c := c.setFld pgFlock 16 (16 + k) 1 ((healthy m k).contains 9 && !cols.contains 9).toNat
    let c := (List.range 10).foldl (fun c x => (List.range 24).foldl (fun c y =>
      let l := (List.range cols.length).find? (fun p => cols.getD p 15 == x)
      c.setReg (pgFold k x y) 16 (withField (withField (withField 0 19 4 (l.getD 15)) 18 1 l.isSome.toNat) 17 1
        (m.getLsbD (10 * k + x)).toNat)) c) c
    (List.range 9).foldl (fun c p => c.setFlag (pgCtu k p) 3 20 (decide (cols.length ≤ p))) c) c

/-! ### Flock formation (R66, R83, R406) -/

def allActive (c : Chip) : List Nat := cores4.flatMap (activeFolds c)

/-- The end of a formation: the geometry is reported and the vote takes its state (R31, R406). -/
def finishForm (target : Nat) (c : Chip) : Chip :=
  let lk := target == modeLinked
  let width := if lk then (cores4.map (fun k => (c.dieCols k).length)).foldl (fun a b => a + b) 0 else 0
  let c := ((c.setFld pgFlock 16 28 6 24).setFld pgFlock 16 22 6 width).setFld pgFlock 16 20 2 (if lk then 1 else 2)
  c.setFld pgVote 3 0 2 lk.toNat

/-- Formation on the way to `target`; with `clear` it waits for PLANE_CLEAR_DONE. -/
def formFlock (target : Nat) (clear : Bool) (c : Chip) : Chip :=
  let c := cores4.foldl (fun c k => mseqClear k (coreResetBy k 3 c)) c
  let c := c.restartPages [12, 13, 14, 15]
  let fs := allActive c
  let c := formLambs fs c
  if clear then
    let c := fs.foldl (fun c f => c.setFlag (foldPage f) 3 0 true) (clearPlanes fs c)
    { c with pwr := { c.pwr with clearing := true } }
  else finishForm target c

/-- The end of a change of mode (R405). -/
def finishChange (target : Nat) (c : Chip) : Chip :=
  let c := (c.setMode target).setFlag pgHub 18 7 false
  { c with pwr := { c.pwr with target := none, abandoned := false } } |>.raise pgHub 0

/-- PLANE_CLEAR_DONE (R83, R406, R415): the clearing ends, the geometry is reported, and the change or BOOT completes. -/
def planeClearDone (c : Chip) : Chip :=
  if !c.pwr.clearing then c
  else
    let c := (allActive c).foldl (fun c f => c.setFlag (foldPage f) 3 0 false) c
    let c := { c with pwr := { c.pwr with clearing := false } }
    if c.pwr.booting then
      let c := finishForm modeSplit c
      let c := { c with pwr := { c.pwr with booting := false }, pins := { c.pins with ready := true } }
      let c := (c.setMode modeSplit).setFlag pgHub 18 7 false
      (c.setFlag pgHub 20 35 true).raise pgHub 2
    else match c.pwr.target with
      | some t => finishChange t (finishForm t c)
      | none => c

/-! ### Device resets (R412, R413, Table 14-4) -/

/-- A cause that arises in OFF, or the record of one that leads there (R413). -/
def recordCause (cause : Nat) (c : Chip) : Chip :=
  let c := c.setFlag pgAon 17 cause true
  if c.pwr.off then { c with pwr := { c.pwr with causes := c.pwr.causes ++ [cause] } }
  else
    let last := c.fld pgAon 16 31 5
    ((c.setFld pgAon 16 26 5 last).setFld pgAon 16 31 5 cause).count pgAon 18 1

/-- What Thonos keeps across a device reset: fuses, flash, tamper log. -/
def Sec.afterReset (s : Sec) : Sec :=
  { s with codes := [0, 0], slotDiff := false, booted := [], treset := false, dbgDeny := false, nonce := none, nonceAt := 0,
           fails := 0, dbgSince := false, tamperSince := false, sender := none, afterWipe := none }

/-- A device reset: every block but the always-on domain is cleared, and the device is in OFF (R412 to R414, R418). -/
def deviceReset (cause : Nat) (c : Chip) : Chip :=
  if c.pwr.off then recordCause cause c
  else
    let c := islandsOff (recordCause cause c)
    { Chip.reset with
        regs := SMap.drop (fun key => decide (key / 512 ≠ pgAon)) c.regs
        pwr := { Pwr.init with islands := c.pwr.islands, rails := c.pwr.rails, causes := [cause] }
        pins := { c.pins with ready := false, ibiPending := false }
        sec := c.sec.afterReset
        out := c.out
        free := c.free }

/-- POR (R413, R441): the always-on domain is cleared as well. -/
def powerOnReset (c : Chip) : Chip :=
  { Chip.reset with
      sec := { c.sec.afterReset with active := [], tlog := [] }
      out := c.out
      free := c.free }

/-- THERMAL_TRIP (R436, R518). -/
def thermalTrip (c : Chip) : Chip :=
  let c := deviceReset 3 c
  { c with pins := { c.pins with alert := true } }

/-- SUPPLY_RESET (R427, R428): a rail other than VDD_AON is at its reset level; a dip under way is logged. -/
def supplyReset (r mv dur : Nat) (c : Chip) : Chip :=
  let x := c.rail r
  let c := if x.dip && !x.ended then dipLog r mv dur (c.setRail r { x with ended := true, group := 0 }) else c
  deviceReset 2 c

/-- VDD_AON_LOSS (R428): the always-on domain is held in reset. -/
def aonLoss (c : Chip) : Chip :=
  let c := powerOnReset c
  { c with pwr := { c.pwr with aonLost := true } }

/-! ### Requests (R402 to R404) -/

def modeAllowed (c : Chip) (t : Nat) : Bool :=
  let m := c.mode
  let fault := c.voteState == 2
  match t with
  | 2 => m == modeSplit || m == modeMaint || (m == modeQuiescent && c.fld pgHub 18 12 3 == modeLinked)
  | 3 => m == modeLinked || m == modeMaint || (m == modeQuiescent && c.fld pgHub 18 12 3 == modeSplit)
  | 4 => m == modeLinked || m == modeSplit
  | 5 => (m == modeLinked && !fault) || m == modeSplit
  | 7 => m == modeLinked || m == modeSplit || m == modeMaint || m == modeQuiescent
  | _ => false

/-- The microsequencers whose CSSIG or REDIR differs from that of BW0 (R236). -/
def csDiffer (c : Chip) : List Nat :=
  let sig (k : Nat) := (c.reg (pgMseq k) 34, c.reg (pgMseq k) 27, c.reg (pgMseq k) 28)
  cores4.filter (fun k => sig k != sig 0)
def csInvalid (c : Chip) : List Nat := cores4.filter (fun k => !c.csValid k)

/-- The first failing check of Table 14-2. -/
def modeCheck (c : Chip) (t : Nat) : Nat :=
  let m := if c.mode = modeMaint then mapInUse c ||| c.pwr.marks else mapInUse c
  if !modeAllowed c t then 1
  else if t = 2 ∧ cores4.any (fun k => (mapCols m k).isEmpty) = true then 2
  else if t = 2 ∧ (csInvalid c).isEmpty = false then 3
  else if t = 2 ∧ (csDiffer c).isEmpty = false then 4
  else if t ≠ 7 ∧ cores4.any (fun k => c.halted k) = true then 5
  else 0

/-- The instruction of microsequencer k is abandoned (R206, R405): its destinations are undefined, and its failed reads are reported (R81).
DESIGN CHOICE (log entry 10): a bite that finds a context held ends its instruction, and leaves HELD and the context registers as they
stand, so that a RESUME takes the context up again. -/
def abandonInstr (k : Nat) (c : Chip) : Chip :=
  let m := c.mseq k
  let c := if m.active then undefResults k m.item c else c
  let c := (c.modMseq k (fun m => { m with active := false, rom := none, fence := false, atCkpt := false, ending := false, mstack := [] })).setBridge k none
  reportDerr k (((c.dropRx k).setFlag (pgMseq k) 3 1 false).endWork k)

/-- Step 2 of R405: every microsequencer is preempted, and those that cannot reach a checkpoint are abandoned; the others of a LINKED flock
are then held one by one (`preemptTake`). With every one held, step 3 follows. -/
def leaveFlock (c : Chip) : Chip :=
  let c := cores4.foldl (fun c k => c.modMseq k (fun m => { m with preempt := !c.mHeld k })) c
  let stuck (k : Nat) : Bool := c.mStopped k || (activeFolds c k).any (fun f => c.foldDead f)
  let c := (cores4.filter stuck).foldl (fun c k =>
    let was := (c.mseq k).active || c.mStopped k
    let c := abandonInstr k c
    let c := c.modMseq k (fun m => { m with preempt := false })
    let c := (c.setReg (pgMseq k) 16 0).setFlag (pgMseq k) 3 2 true
    { c with pwr := { c.pwr with abandoned := c.pwr.abandoned || was } }) c
  leaveAbort c

/-- A request for OFF ends every halt without releasing the core, with OFF in HCAUSE (Table 18-4, log entry 11); step 2 of R405 passes over
the halted dies, which go off (R498). -/
def endHalts (c : Chip) : Chip :=
  cores4.foldl (fun c k =>
    let c := c.setCore k { c.core k with halt := none, stepping := false }
    if c.halted k then ((c.setFld (pgBw k) 3 0 2 0).setFlag (pgMseq k) 3 2 true).setFld pgGander 17 (9 * k) 9 7 else c) c

/-- A request that passed its checks (R403, R405). -/
def beginChange (t : Nat) (c : Chip) : Chip :=
  let c := (c.setFld pgHub 18 8 4 0).setFlag pgHub 18 7 true
  let c := { c with pwr := { c.pwr with target := some t, abandoned := false } }
  let c := if t = 7 then endHalts c else c
  if c.mode = modeLinked ∨ c.mode = modeSplit then leaveFlock c else c

/-- A mode request that the page has taken (R403). -/
def modeRequest (t : Nat) (c : Chip) : Chip :=
  let code := modeCheck c t
  if code = 0 then beginChange t c
  else
    let c := if code = 3 then voteLog 6 ((csInvalid c).foldl (fun b k => b + 2 ^ k) 0) c
      else if code = 4 then voteLog 6 ((csDiffer c).foldl (fun b k => b + 2 ^ k) 0) c else c
    let c := if code = 3 ∨ code = 4 then
        (if c.fld pgVote 17 32 3 = 6 then c.setFld pgVote 17 0 28 0 else c) else c
    (c.setFld pgHub 18 8 4 code).raise pgHub 1

/-! ### Control stores (R210, R211, R415, R487) -/

/-- Thonos loads one control store from an image's MICROCODE section. -/
def loadStore (k : Nat) (x : Word × Word × (Nat → BitVec 144)) (c : Chip) : Chip :=
  let c := mseqReset k c
  let c := (List.range 4096).foldl (fun c i => setCs k (4096 + i) (x.2.2 i) c) c
  let c := (c.setReg (pgMseq k) 27 x.1).setReg (pgMseq k) 28 (x.2.1 &&& 0xfffffff)
  (csLoaded k c).setFlag (pgMseq k) 9 5 true

/-- A reload in MAINTENANCE (R487): the section is checked against the digest verified at boot. -/
def reloadStore (k : Nat) (readOk : Bool) (c : Chip) : Chip :=
  let im := flashImage c (c.fld pgThonos 3 12 1)
  let entry := (sections im).zipIdx.find? (fun s => s.1.kind == 1)
  let digestOk := match entry with
    | some s => sha384 (rd im s.1.off s.1.len) == (c.sec.booted.drop (0xA0 + 64 * s.2 + 16)).take 48
    | none => true
  let c := mseqReset k c
  match (if readOk && digestOk && !tamperActive c then microcode im else none) with
  | some x => loadStore k x c
  | none => c.raise pgThonos tvReject

/-! ### The target's steps (R406 to R411) -/

/-- Held and queued instructions are discarded (R405, R406). -/
def discardAll (c : Chip) : Chip := cores4.foldl (fun c k => discardCmd k c) c

/-- Every stack that has trained enters or leaves self-refresh (R276, R277, R410, R411). -/
def selfRefresh (on : Bool) (c : Chip) : Chip :=
  cores4.foldl (fun c d => [0, 1].foldl (fun c m => c.setFlag (pgHbmc d m) 3 2 (on && c.flag (pgHbmc d m) 3 0)) c) c

/-- Entry to MAINTENANCE: the cores, the lamb registers and the contexts are reset (R408, Table 14-6). -/
def toMaint (c : Chip) : Chip :=
  let c := discardAll c
  let c := formLambs (allActive c) (cores4.foldl (fun c k => coreReset k c) c)
  let c := c.setFld pgFlock 16 20 14 0
  let c := c.setFld pgVote 3 0 2 0
  let c := cores4.foldl (fun c k => if c.mStopped k then reloadStore k true c else c) c
  finishChange modeMaint c

/-- Entry to QUIESCENT (R410). With RETAIN = 0 the fold-array domains go off: the levels of their pages are 0 (R395), and what Table 14-6
does not list, the registers of those pages among it, is kept (R418). -/
def toQuiescent (c : Chip) : Chip :=
  let retain := c.flag pgHub 19 0 && !c.pwr.abandoned
  let c := c.setFld pgHub 18 12 3 c.mode
  let c := selfRefresh true { c with pwr := { c.pwr with retain := retain } }
  finishChange modeQuiescent (if retain then c else levelsOff ((allActive c).map foldPage) (discardAll c))

def fromQuiescent (t : Nat) (c : Chip) : Chip :=
  let c := selfRefresh false c
  if c.pwr.retain then finishChange t (cores4.foldl (fun c k => if c.mHeld k then resumeHeld k c else c) c)
  else formFlock t true c

/-- MODE_CHANGE_COMPLETE (R405): once every microsequencer is held and every channel is IDLE. -/
def modeChangeComplete (c : Chip) : Chip :=
  match c.pwr.target with
  | none => c
  | some t =>
    let leaving := c.mode == modeLinked || c.mode == modeSplit
    let ready := !leaving || (cores4.all (fun k => c.mHeld k) && allChannels.all (fun x => (c.chan x.1 x.2.1 x.2.2).st == 0))
    if !ready || c.pwr.clearing then c
    else match t with
      | 4 => toMaint c
      | 5 => toQuiescent c
      | 7 => deviceReset 8 (if leaving then discardAll c else c)
      | _ =>
        if c.mode = modeQuiescent then fromQuiescent t c
        else if c.mode = modeMaint then
          let c := applyMap (mapInUse c ||| c.pwr.marks) c
          formFlock t true { c with pwr := { c.pwr with marks := 0 } }
        else finishChange t (formFlock t false (discardAll c))

/-! ### BOOT (R415 to R417) -/

/-- The conditions under which the device leaves OFF (R412, R436, R516, R526). -/
def mayLeaveOff (c : Chip) (f : BootFacts) : Bool :=
  c.pwr.off && !c.pwr.aonLost && f.railsOk && f.rstHigh && f.refOk && !f.testEn &&
  (!c.pwr.causes.contains 3 || c.pwr.islands.all (fun e => decide (degrees e.2.temp < 95))) &&
  (!c.pwr.causes.contains 8 || f.wakeLow || f.rstPulsed)

/-- Power-up, clocks and straps: every bank wakes and clears, and the secure bank is wiped (R288, R289, R430, R516, R519). -/
def bootPower (f : BootFacts) (c : Chip) : Chip :=
  let c := islandsStart c
  let c := { c with pwr := { c.pwr with off := false, causes := [] }, tally := 0
                    mem := { c.mem with banks := [], hbm := [] } }
  let c := [0, 1].foldl (fun c h =>
    (c.setFlag (pgPcie h) 3 3 f.peBif).setFlag (pgPcie h) 3 4 (if h = 0 then f.peSris0 else f.peSris1)) c
  let low := (List.range 8).any (fun e => (f.vcp >>> (2 * e)).toNat % 4 == 1)
  let c := (c.setReg pgBoard 17 (f.vcp.setWidth 36)).setFld pgBoard 3 3 7
    (f.mgmt.toNat + 8 * f.peBif.toNat + 16 * f.peSris0.toNat + 32 * f.peSris1.toNat + 64 * low.toNat)
  (List.range 9).foldl (fun c b => bankWake b c) c

/-- The image of the slot that boots is taken over: its header, SETTINGS and codes (R470, R472, R483). -/
def takeImage (slot : Nat) (c : Chip) : Chip :=
  let im := flashImage c slot
  let st : List Octet := match sectOf im 2 with | some s => rd im s.off s.len | none => []
  let c := { c with sec := { c.sec with booted := rd im 0 0x2A0, treset := (st.headD 0).getLsbD 0, dbgDeny := (st.getD 1 0).getLsbD 0 } }
  (c.setFld pgThonos 3 12 1 slot).setFld pgHub 20 20 1 slot

/-- Steps 3 and 4: the repair map and the fold columns (R416). -/
def bootMap (f : BootFacts) (c : Chip) : Chip :=
  let n := c.sec.maps.length
  let c := if n = 0 then c
    else ((c.setFld pgHub 20 21 3 (n - 1)).setFld pgHub 21 0 3 (n - 1)).setFlag pgHub 21 33 (decide (8 ≤ n))
  let stored := c.sec.maps.getLastD 0
  if n ≠ 0 ∧ f.mapOk = true then applyMap stored c
  else
    let c := ((c.setFlag pgHub 20 25 true).raise pgHub 3).setFlag pgHub 21 32 (n == 0 || f.tested != stored)
    applyMap f.tested c

/-- Step 5: the stacks train (R276). -/
def bootTrain (f : BootFacts) (c : Chip) : Chip :=
  (List.range 8).foldl (fun c n =>
    let p := pgHbmc (n / 2) (n % 2)
    if f.trainFail.getLsbD n then ((c.setFlag p 3 1 true).raise p 2).setFlag pgHub 20 n true else c.setFlag p 3 0 true) c

/-- BOOT (R412, R415): the device leaves OFF and runs the steps of Table 14-5; step 8 waits for PLANE_CLEAR_DONE. -/
def boot (f : BootFacts) (c : Chip) : Chip :=
  if !mayLeaveOff c f then c
  else
    let c := bootPower f c
    let ch := chooseSlot c f.flashA f.flashB
    let c := { c with sec := { c.sec with codes := ch.2.1, slotDiff := ch.2.2 } }
    let c := ch.2.1.foldl (fun c code => if code = 0 then c else c.raise pgThonos tvReject) c
    let c := if ch.2.2 then c.raise pgThonos tvSlotDiff else c
    match ch.1 with
    | none => (c.setFld pgHub 20 31 4 2).setFld pgHub 20 26 5 1
    | some slot =>
      let c := bootTrain f (bootMap f (takeImage slot c))
      let c := match microcode (flashImage c slot) with
        | some x => cores4.foldl (fun c k => loadStore k x c) c
        | none => c.setFld pgHub 20 26 5 2
      let c := { c with pwr := { c.pwr with booting := true } }
      formFlock modeSplit true (c.setFld pgHub 20 31 4 8)

/-- RMAP_COMMIT (R417), once the page has taken it. -/
def rmapCommit (c : Chip) : Chip := c.setFlag pgHub 21 34 true
/-- RMAP_COMMIT_DONE (R417): the map in use is the next generation. -/
def rmapCommitDone (c : Chip) : Chip :=
  if c.flag pgHub 21 34 then
    let c := { c with sec := { c.sec with maps := c.sec.maps ++ [mapInUse c] } }
    ((c.setFlag pgHub 21 34 false).setFld pgHub 21 0 3 (c.sec.maps.length - 1)).setFlag pgHub 21 33
      (decide (8 ≤ c.sec.maps.length))
  else c

/-- FOLD_TEST_DONE (R459): `found` marks the physical columns in which a fold failed. -/
def foldTestDone (found : BitVec 40) (c : Chip) : Chip :=
  if c.flag pgFlock 3 0 then
    let old := mapInUse c ||| c.pwr.marks
    let c := { c with pwr := { c.pwr with marks := c.pwr.marks ||| found } }
    let c := (c.setFlag pgFlock 3 0 false).raise pgFlock 1
    if found &&& ~~~old ≠ 0 then (c.raise pgFlock 2).setFlag pgHub 21 32 true else c
  else c

end Sys2Proof.Machine
end

