-- ==== Sys2Proof/Machine/Debug.lean ====
section
/-!
DEFINITION. Watchdogs, the release and the stop of a core, and debug halt (R204 to R208, R494 to R500, R536).
-/
namespace Sys2Proof.Machine

/-! ### Watchdogs (R205 to R208) -/

def wdgStage (c : Chip) (k : Nat) : Nat := c.fld (pgWdg k) 3 0 2
def wdgReload (k : Nat) (c : Chip) : Chip := c.setReg (pgWdg k) 17 (BitVec.ofNat 36 (c.fld (pgWdg k) 16 0 24))
/-- COUNT := PERIOD and STAGE := 0. -/
def wdgRestart (k : Nat) (c : Chip) : Chip := (wdgReload k c).setFld (pgWdg k) 3 0 2 0
/-- A KICK (R205). -/
def wdgKick (k : Nat) (c : Chip) : Chip := if wdgStage c k = 2 then c else wdgRestart k c

/-- A bite (R206, R207). DESIGN CHOICE (log entry 10): outside LINKED, MAINTENANCE included, it does what R206 says for SPLIT. -/
def wdgBite (k : Nat) (c : Chip) : Chip :=
  let c := ((c.setFld (pgWdg k) 3 0 2 2).setFlag (pgWdg k) 3 2 false).raise (pgWdg k) 2
  if c.linked then (controlCheck 0 6 k 15 0 4 c).setFld pgVote 3 0 2 2
  else coreResetBy k 2 (abandonInstr k (c.setFlag (pgBw k) 2 0 false))

/-- The watchdog is in a debug halt, which a step does not end (R208, R500). -/
def wdgHalt (c : Chip) (k : Nat) : Bool := c.halted k || (c.core k).stepping
/-- The watchdog counts (R205, R206, R208). -/
def wdgCounts (c : Chip) (k : Nat) : Bool :=
  c.flag (pgWdg k) 2 0 && c.fld (pgWdg k) 16 0 24 != 0 && wdgStage c k != 2 && (!wdgHalt c k || c.flag (pgWdg k) 2 1)
/-- One unit of 1,024 TALLY ticks. -/
def wdgUnit (k : Nat) (c : Chip) : Chip :=
  if wdgCounts c k && c.fld (pgWdg k) 17 0 24 != 0 then c.setFld (pgWdg k) 17 0 24 (c.fld (pgWdg k) 17 0 24 - 1) else c
/-- WATCHDOG_EXPIRY (R206, R208): COUNT has reached zero. -/
def wdgExpiry (k : Nat) (c : Chip) : Chip :=
  if wdgCounts c k && c.fld (pgWdg k) 17 0 24 == 0 then
    let c := wdgReload k c
    let c := if wdgHalt c k then c.raise (pgWdg k) 1 else c
    if wdgStage c k = 1 ∧ c.flag (pgWdg k) 2 2 = true then
      (if wdgHalt c k then c.setFlag (pgWdg k) 3 2 true else wdgBite k c)
    else (c.setFld (pgWdg k) 3 0 2 1).raise (pgWdg k) 0
  else c

/-! ### RUN (R203, R407, R536) -/

/-- A halt that waits for the next boundary of the cores of the flock; the first cause stands. -/
def askHalt (k comp cause : Nat) (c : Chip) : Chip :=
  (c.flockCores k).foldl (fun c j =>
    let x := c.core j
    if c.halted j || x.halt.isSome then c else c.setCore j { x with halt := some (BitVec.ofNat 6 (8 * comp + cause)) }) c
/-- Bit of a GANDER.CTRL field for core k; in LINKED only that of BW0 counts (R497). -/
def gaBit (c : Chip) (k lo : Nat) : Bool := c.flag pgGander 2 (lo + (if c.linked then 0 else k))

/-- A held core is released at RESETPC, into debug halt when HALTRST names it (R203, R495). -/
def startCore (k : Nat) (c : Chip) : Chip :=
  let c := coreRelease k c
  if gaBit c k 4 then
    let x := c.core k
    c.setCore k { x with halt := some 6 }
  else c

/-- BW_RUN_RELEASE: RUN := 1 (R203, R536). -/
def runRelease (k : Nat) (c : Chip) : Chip :=
  let c := c.setFlag (pgBw k) 2 0 true
  if (c.core k).stop then c.setCore k { c.core k with rerun := true }
  else if c.running k then c else startCore k c

/-- The instructions still queued are discarded while the core stops with issue stopped, and a held context ends (R536). In LINKED the
cores have first come to their common boundary (R407). -/
def stopDiscard (k : Nat) (c : Chip) : Chip :=
  if (c.core k).stop && (c.flockCores k).all (fun j => !c.behind j) then
    let c := if c.istop k then (c.setCore k { c.core k with queue := [] }).modMseq k (fun m => { m with voted := none }) else c
    if c.mHeld k then discardCmd k c else c
  else c

/-- BW_RUN_STOP: RUN := 0 (R536). WAITING and DFAULT end (Table 6-15). -/
def runStop (k : Nat) (c : Chip) : Chip :=
  let c := c.setFlag (pgBw k) 2 0 false
  if c.running k then
    let x := c.core k
    stopDiscard k ((c.setCore k { x with stop := true, rerun := false, runTo := if c.dfault k then 0 else x.runTo }).setFld (pgBw k) 3 2 2 0)
  else c

/-- The core stands at an instruction boundary: no divide holds it, no request is out (R199, R537). -/
def atBoundary (c : Chip) (k : Nat) : Bool := !divHold c k && (c.core k).cop.isNone && (c.core k).xact == Xact.none

/-- CORE_RESET_HOLD (R166, R407, R536): the cores of the flock have stopped at their common boundary and their array work has ended. -/
def coreResetHold (k : Nat) (c : Chip) : Chip :=
  let ks := c.flockCores k
  let c := ks.foldl (fun c j => stopDiscard j c) c
  let ended (j : Nat) : Bool :=
    let x := c.core j
    let m := c.mseq j
    x.stop && !c.behind j && x.cop.isNone && x.xact == Xact.none && x.queue.isEmpty && !m.active && m.voted.isNone && m.reds.isEmpty
  if ks.all ended then
    ks.foldl (fun c j => if (c.core j).rerun then startCore j (coreResetBy j 1 c) else coreResetBy j 1 c) c
  else c

/-! ### Debug halt (R495 to R500) -/

def Chip.port (c : Chip) (s : Nat) : Word := SMap.get (fun _ => 0) c.dbg.port s
def Chip.setPort (c : Chip) (s : Nat) (v : Word) : Chip :=
  { c with dbg := { c.dbg with port := SMap.set (fun _ => 0) c.dbg.port s v } }

/-- A port command ends (R492). -/
def portEnd (code : Nat) (c : Chip) : Chip :=
  let c := (c.abandon c.dbg.xact).setPort 3 (withField (c.port 3) 30 5 code)
  { c with dbg := { c.dbg with cmd := none, reqs := [], xact := Xact.none } } |>.raise pgGander 2

/-- Core k is in debug halt. -/
def haltCore (k : Nat) (cause : BitVec 6) (c : Chip) : Chip :=
  let x := c.core k
  let c := c.setCore k { x with halt := none, resv := none, stepping := false }
  let c := ((c.setFlag (pgBw k) 3 1 true).setFlag (pgBw k) 3 2 false).setFld pgGander 17 (9 * k) 9 cause.toNat
  c.raise pgGander 0

/-- DEBUG_HALT_ENTRY (R495, R497): the core, or in LINKED the four aligned cores, halt at a boundary; a step ends. -/
def haltEntry (k : Nat) (c : Chip) : Chip :=
  let ks := c.flockCores k
  let there (j : Nat) : Bool := c.running j && !c.halted j && (c.core j).halt.isSome && (c.dfault j || atBoundary c j) &&
    (c.core j).retired == (c.core k).retired
  if ks.all there then
    let c := ks.foldl (fun c j => haltCore j ((c.core j).halt.getD 0) c) c
    match c.dbg.cmd with
    | some w =>
      if fieldOf w 30 6 = 4 ∧ ks.any (fun j => bitAt w (26 + j)) = true then portEnd 0 (c.setPort 8 (c.pc (ks.headD k))) else c
    | none => c
  else c

/-- The release of a halted core (R208, R498, R499). -/
def unhalt (k : Nat) (step : Bool) (c : Chip) : Chip :=
  if !c.halted k then c
  else
    let c := c.setFlag (pgBw k) 3 1 false
    let c := c.setCore k { c.core k with skip := true, failStc := true, stepping := step }
    if step then c
    else
      let c := if c.flag (pgWdg k) 2 1 then c else wdgRestart k c
      let cmd := c.fld (pgMseq k) 2 0 3
      let c := if cmd = 0 then c else mseqCommand k cmd c
      if c.flag (pgWdg k) 3 2 then wdgBite k c else c

/-- GANDER_EVENT_INPUT (R495). -/
def gaRise (c : Chip) : Chip :=
  if c.evh.gaRise then
    let c := { c with evh := { c.evh with gaRise := false } }
    cores4.foldl (fun c k => if gaBit c k 8 && c.running k then askHalt k 0 5 c else c) c
  else c

/-! ### Authorisation (R484, R494) -/

/-- Debug is authorised: PSTAT.AUTH. -/
def authorised (c : Chip) : Bool := bitAt (thonosStat c) 14

/-- No halt outlives its authorisation (R494): a halt that is asked for does not come, a step becomes a release. -/
def releaseHalt (k : Nat) (c : Chip) : Chip :=
  let x := c.core k
  let c := if x.stepping then c.setFlag (pgBw k) 3 1 true else c
  unhalt k false (c.setCore k { x with halt := none, stepping := false })

/-- DBG falls (R494): comparators disarmed, CTRL cleared, halts released, a running command LOCKED. -/
def dbgFall (c : Chip) : Chip :=
  let c := (List.range 32).foldl (fun c i => c.setFlag pgGander (32 + 2 * i) 35 false) c
  let c := c.setReg pgGander 2 0
  let c := cores4.foldl (fun c k => releaseHalt k c) c
  let c := if c.dbg.cmd.isSome then portEnd 2 c else c
  c.raise pgGander 1

/-- Thonos sets or clears STAT.DBG. -/
def setDbg (v : Bool) (c : Chip) : Chip :=
  let was := authorised c
  let c := c.setFlag pgThonos 3 14 v
  if v && !was then c.raise pgGander 1 else if was && !authorised c then dbgFall c else c

end Sys2Proof.Machine
end

