-- ==== Sys2Proof/Machine/Thonos.lean ====
section
/-!
DEFINITION. Thonos commands and the tamper response (R474 to R486).
-/
namespace Sys2Proof.Machine

/-! ### The mailbox (R480) -/

def cmdOf (c : Chip) : Nat := c.fld pgThonos 2 30 6
def mboxAt (c : Chip) : Nat := bankBase 4 + 4 * c.fld pgThonos 2 0 20
def mboxOk (c : Chip) : Bool := decide (c.fld pgThonos 2 0 20 + 257 ≤ bankWords 4) && bankOn c 4

/-- Octets one per nonet, written from a nonet address; other nonets of a word that is not filled stay. -/
def putLow8 (a : Nat) (os : List Octet) (c : Chip) : Chip :=
  (os.zipIdx).foldl (fun c x =>
    let w := a + 4 * (x.2 / 4)
    c.bankWrite w ((x.1.setWidth 36 : Word) <<< (9 * (x.2 % 4))) [x.2 % 4] false) c

/-- The AUTH command that gave this Thonos command ends: the mailbox comes back to BUF (R493). -/
def authDone (code n : Nat) (c : Chip) : Chip :=
  match c.dbg.cmd with
  | some w =>
    if fieldOf w 30 6 = 1 ∧ c.sec.sender = some 2 then
      let c := (List.range 256).foldl (fun c i =>
        let r := c.bankRead 4 (mboxAt c + 4 + 4 * i) 1 allNonets
        r.2.2.setPort (256 + i) r.1) c
      portEnd (if code = 0 then 0 else 7) ((c.setPort 8 (BitVec.ofNat 36 code)).setPort 9 (BitVec.ofNat 36 n))
    else c
  | none => c

/-- The end of a command (R480): response, word 0, CODE, BUSY, CMDDONE. -/
def answer (code : Nat) (resp : List Octet) (c : Chip) : Chip :=
  let c := if mboxOk c then
      let c := putLow8 (mboxAt c + 4) resp c
      c.bankWrite (mboxAt c) (withField (withField (withField 0 35 1 1) 30 5 code) 18 12 resp.length) allNonets false
    else c
  let c := ((c.setFld pgThonos 3 18 5 code).setFlag pgThonos 3 23 false).setFld pgThonos 2 30 6 0
  let c := authDone code resp.length (c.raise pgThonos tvCmdDone)
  { c with sec := { c.sec with sender := none } }

/-- Who may give a command (Table 17-7): 0 the host, 1 a core, 2 Gander. -/
def senderOk (cmd who : Nat) : Bool :=
  match cmd with
  | 1 => decide (who ≤ 2)
  | 2 | 3 | 4 | 5 => who == 0
  | 6 => who == 0 || who == 1
  | 7 | 8 | 9 => who == 2
  | 10 => who == 0 || who == 2
  | _ => false

/-- Commands that the mode and the lifecycle state take (R477, R479); ATTEST and DBGPASS have states of their own (R483, R484). -/
def stateOk (c : Chip) (cmd who : Nat) : Bool :=
  (c.mode != modeBoot || (who == 0 && (cmd == 1 || cmd == 2) && !c.pwr.booting)) && (lcsOf c != 5 || cmd == 1) &&
  (cmd != 6 || lcsOf c == 2 || lcsOf c == 3) && (cmd != 9 || lcsOf c == 1)

/-- The code with which a command ends before its argument is read; 0 for none (R479, R484). A debug command that ends so has made no
attempt and is not counted (log entry 23). -/
def gateCode (c : Chip) (cmd who : Nat) : Nat :=
  if !senderOk cmd who then 1
  else if !stateOk c cmd who then 2
  else if decide (7 ≤ cmd) && decide (cmd ≤ 9) && tamperActive c then 0o13
  else if (cmd == 8 || cmd == 9) && decide (8 ≤ c.sec.fails) then 0o11
  else 0

/-- The end of a DBGRESP or DBGPASS (R484): a failure counts, a success unlocks. -/
def dbgResult (code : Nat) (c : Chip) : Chip :=
  if code = 0 then
    let c := setDbg true { c with sec := { c.sec with fails := 0, dbgSince := true } }
    answer 0 [] (c.raise pgThonos tvDbgUnlock)
  else
    let n := c.sec.fails + 1
    let c := { c with sec := { c.sec with fails := n } }
    answer code [] (if n = 8 then c.raise pgThonos tvLockout else c)

/-- The open nonce is dropped. -/
def dropNonce (c : Chip) : Chip := { c with sec := { c.sec with nonce := none } }

/-- A command ends with a code that is not OK and no response. A DBGRESP uses the open nonce up, and a DBGRESP or DBGPASS counts its
failure (R484). -/
def commandFailed (cmd code : Nat) (c : Chip) : Chip :=
  if cmd = 8 then dbgResult code (dropNonce c) else if cmd = 9 then dbgResult code c else answer code [] c

/-- The argument octets, or the code with which the command ends, and what the reads log. -/
def readArgs (cmd : Nat) (c : Chip) : (Nat ⊕ List Octet) × Chip :=
  if !mboxOk c then (.inl 0o15, c)
  else
    let a := mboxAt c
    let r := c.bankRead 4 a 1 allNonets
    let n := fieldOf r.1 18 12
    if r.2.1 then (.inl 0o15, r.2.2)
    else if fieldOf r.1 30 6 ≠ cmd ∨ fieldOf r.1 0 18 ≠ 0 ∨ 1024 < n then (.inl 3, r.2.2)
    else
      let x := (List.range ((n + 3) / 4)).foldl (fun (x : Bool × List (BitVec 9) × Chip) i =>
        let w := x.2.2.bankRead 4 (a + 4 + 4 * i) 1 allNonets
        (x.1 || w.2.1, x.2.1 ++ nonets4 w.1, w.2.2)) (false, [], r.2.2)
      let os := x.2.1.take n
      if x.1 then (.inl 0o15, x.2.2)
      else if os.any (fun o => o.getLsbD 8) then (.inl 3, x.2.2)
      else (.inr (os.map (fun o => o.setWidth 8)), x.2.2)
where
  nonets4 (w : Word) : List (BitVec 9) := (List.range 4).map (fun i => (w >>> (9 * i)).setWidth 9)

/-- A command that is running and is `cmd` executes `f` on its argument; a command that may not run ends with its code, and
one whose bank clears waits (R288). -/
def thonosCommand (cmd : Nat) (f : List Octet → Chip → Chip) (c : Chip) : Chip :=
  if !c.flag pgThonos 3 23 || cmdOf c != cmd || c.sec.afterWipe.isSome then c
  else
    let g := gateCode c cmd (c.sec.sender.getD 3)
    if g ≠ 0 then answer g [] c
    else if bankClearing c 4 then c
    else
      let r := readArgs cmd c
      match r.1 with
      | .inl code => commandFailed cmd code r.2
      | .inr args => f args r.2

/-- The write of CTRL that the page has taken (R478): a command starts; an undefined one ends with BADCMD. -/
def thonosStart (who : Nat) (v : Word) (c : Chip) : Chip :=
  let c := c.setReg pgThonos 2 v
  if fieldOf v 30 6 = 0 then c
  else
    let c := { c.setFlag pgThonos 3 23 true with sec := { c.sec with sender := some who } }
    if 10 < fieldOf v 30 6 then answer 1 [] c else c

/-! ### Commands -/

def oct (n : Nat) : Octet := BitVec.ofNat 8 n
def zeroOctets (n : Nat) : List Octet := List.replicate n 0
def fitTo (n : Nat) (l : List Octet) : List Octet := (l ++ zeroOctets n).take n

def writtenBits (c : Chip) (lo n : Nat) : Nat :=
  (List.range n).foldl (fun b i => if written c (lo + i) then b + 2 ^ i else b) 0
def slotBooted (c : Chip) : Nat := c.fld pgThonos 3 12 1
/-- An identity key pair exists (Table 17-5). -/
def hasIdentity (c : Chip) : Bool := lcsOf c == 2 || lcsOf c == 3 || lcsOf c == 4 || lcsOf c == 5

/-- DEVINFO (R482). -/
def devInfo (args : List Octet) (c : Chip) : Chip :=
  if !args.isEmpty then answer 3 [] c
  else answer 0 (devId ++ [oct (lcsOf c), oct (arcOf c), c.sec.revoke.setWidth 8, oct (writtenBits c 0 6), oct (writtenBits c 8 4),
    oct (slotBooted c), oct (c.sec.codes.getD 0 0), oct (c.sec.codes.getD 1 0),
    oct (c.sec.slotDiff.toNat + 2 * c.sec.dbgSince.toNat), 0, 0] ++ (if hasIdentity c then identityKey else zeroOctets 97)) c

/-- Octet a of an image staged DENSE from word w0 of the host bank (R481). -/
def stagedOctet (c : Chip) (w0 a : Nat) : Octet :=
  (List.range 8).foldl (fun (o : Octet) i =>
    let b := 8 * a + i
    if bitAt (c.bankWord (bankBase 4 + 4 * (w0 + b / 36))) (b % 36) then o ||| (1#8 <<< i) else o) 0

/-- A slot of the flash is erased, or takes an image. -/
def flashSet (slot : Nat) (os : List Octet) (c : Chip) : Chip :=
  let base := slot * 0x800000
  let f := SMap.drop (fun k => decide (base ≤ k) && decide (k < base + 0x800000)) c.sec.flash
  { c with sec := { c.sec with flash := SMap.setAll (fun _ => 0xFF) f ((os.zipIdx).map (fun x => (base + x.2, x.1))) } }

/-- UPDATE (R481). `flash`: 0 the flash works, 1 a write or erase fails and leaves the slot erased (log entry 23), 2 and 3 the slot reads
back with other digests and its header is erased. -/
def update (flash : BitVec 2) (args : List Octet) (c : Chip) : Chip :=
  let w0 := le (args.take 4)
  let len := le ((args.drop 4).take 4)
  let slot := (args.getD 8 0).toNat
  let opt := args.getD 9 0
  let words := 2 * ((len + 8) / 9)
  if args.length ≠ 10 ∨ 1 < slot ∨ 1 < opt.toNat then answer 3 [] c
  else if c.mode ≠ modeBoot ∧ slot = slotBooted c then answer 2 [] c
  else if bankWords 4 < w0 + words then answer 0o15 [] c
  else
    let r := (List.range words).foldl (fun (x : Bool × Chip) i =>
      let w := x.2.bankRead 4 (bankBase 4 + 4 * (w0 + i)) 1 allNonets
      (x.1 || w.2.1, w.2.2)) (false, c)
    if r.1 then answer 0o15 [] r.2
    else
      let c := r.2
      let im : Image := fun a => if a < len then stagedOctet c w0 a else 0
      let code := if imgLen im = len then imageCode c im true else (if imageCode c im true = 0o10 then 0o10 else 3)
      if code ≠ 0 then answer code [] c
      else if flash = 1 then answer 0o10 [] (flashSet slot [] c)
      else if 2 ≤ flash.toNat then answer 7 [] (flashSet slot (List.replicate 0x300 0xFF ++ rd im 0x300 (len - 0x300)) c)
      else
        let c := answer 0 [] (flashSet slot (rd im 0 len) c)
        if opt = 1 then deviceReset 5 c else c

/-- ARBCOMMIT (R475). -/
def arbCommit (args : List Octet) (c : Chip) : Chip :=
  if !args.isEmpty then answer 3 [] c
  else
    let arv := (c.sec.booted.getD 8 0).toNat
    answer 0 [] (if arcOf c < arv then { c with sec := { c.sec with arc := some (min arv 64) } } |>.setFld pgThonos 3 5 7 (min arv 64) else c)

/-- The signatures of a record by the key slots of a list (R480). -/
def recordCode (c : Chip) (r : List Octet) (signers : List Nat) : Nat :=
  let im : Image := fun a => r.getD a 0
  let digest := sha384 (r.take 0x1C0)
  let pub (i : Nat) : List Octet := rd im (0xE0 + 97 * i) 97
  let sig (i : Nat) : List Octet := rd im (0x1C0 + 96 * i) 96
  if (signers.zipIdx).any (fun s => !keyOk c s.1 (pub s.2)) then 4
  else if (signers.zipIdx).any (fun s => !ecdsaOk (pub s.2) digest (sig s.2)) then 5
  else 0

/-- The layout of a record that both commands share: reserved octets, DEVID, and the second signer where none signs. -/
def recordFormat (r : List Octet) (rtype : Nat) (two hashes : Bool) : Bool :=
  let im : Image := fun a => r.getD a 0
  r.length == 640 && (im 0).toNat == rtype && zeros (rd im 4 12) && zeros (rd im 0x1A2 30) && rd im 0x10 16 == devId &&
  (two || ((im 3).toNat == 0xFF && zeros (rd im 0x141 97) && zeros (rd im 0x220 96))) && (hashes || zeros (rd im 0x20 192))

/-- Every secret of an open debug session is dropped and debug is locked. -/
def lockDebug (c : Chip) : Chip := setDbg false (dropNonce c)

/-- The blowing of a new lifecycle state (R477). -/
def blowLcs (t : Nat) (r : List Octet) (c : Chip) : Chip :=
  let h (i : Nat) : List Octet := (r.drop (0x20 + 48 * i)).take 48
  let s := c.sec
  let s := if t = 2 then
      { s with hashes := SMap.setAll (fun _ => []) s.hashes [(4, h 0), (5, h 1), (10, h 2), (11, h 3)] } else s
  let s := if t = 4 then { s with idkill := true } else s
  { c with sec := { s with lcs := some t } }

/-- The classes of the signers of a transition (Table 17-5): vendor slots 0 to 3, owner slots 4 and 5. -/
def transition (lcs t : Nat) : Option (List Bool) :=
  match lcs, t with
  | 1, 2 => some [false]
  | 2, 3 => some [true]
  | 2, 5 => some [true]
  | 3, 4 => some [true, false]
  | 3, 5 => some [true]
  | 4, 5 => some [false]
  | _, _ => none
def classOk (owner : Bool) (s : Nat) : Bool := if owner then s == 4 || s == 5 else decide (s < 4)

/-- LIFECYCLE (R476, R477): the answer and the reset follow once the secure bank is wiped (`wipeEnd`). -/
def lifecycle (r : List Octet) (c : Chip) : Chip :=
  let t := (r.getD 1 0).toNat
  match transition (lcsOf c) t with
  | none => answer 3 [] c
  | some cls =>
    let signers := (List.range cls.length).map (fun i => (r.getD (2 + i) 0).toNat)
    if !recordFormat r 1 (cls.length == 2) (t == 2) then answer 3 [] c
    else if (signers.zip cls).any (fun x => !classOk x.2 x.1) then answer 4 [] c
    else
      let code := recordCode c r signers
      if code ≠ 0 then answer code [] c
      else
        let c := secureWipe (blowLcs t r (lockDebug c))
        { c with sec := { c.sec with afterWipe := some true } }

/-- REVOKE (R474). -/
def revoke (r : List Octet) (c : Chip) : Chip :=
  let s := (r.getD 1 0).toNat
  let signer := (r.getD 2 0).toNat
  let cls := if s < 4 then [0, 1, 2, 3] else [4, 5]
  if !recordFormat r 2 false false || decide (5 < s) then answer 3 [] c
  else if !cls.contains signer || signer == s then answer 4 [] c
  else
    let code := recordCode c r [signer]
    if code ≠ 0 then answer code [] c
    else if cls.all (fun k => k == s || !written c k || revoked c k) then answer 0o14 [] c
    else answer 0 [] { c with sec := { c.sec with revoke := c.sec.revoke ||| (1#6 <<< s) } }

/-- ATTEST (R483). -/
def attest (nonce : List Octet) (c : Chip) : Chip :=
  if nonce.length ≠ 48 then answer 3 [] c
  else
    let hdr : Image := fun a => c.sec.booted.getD a 0
    let flags := c.sec.slotDiff.toNat + 2 * c.sec.dbgSince.toNat + 4 * c.sec.tamperSince.toNat
    let mfuse := sha384 ([0, 1, 2, 3, 4, 5, 8, 9, 10, 11].flatMap (hashOf c) ++ [c.sec.revoke.setWidth 8, oct (lcsOf c)])
    let body := [1, 0, oct (lcsOf c), oct (arcOf c), oct (slotBooted c), hdr 8, oct flags] ++ zeroOctets 9 ++ devId ++ nonce ++
      romDigest ++ fitTo 48 (sha384 c.sec.booted) ++ (List.range 8).flatMap (fun i => rd hdr (0xA0 + 64 * i + 16) 48) ++
      fitTo 48 mfuse ++ identityKey ++ zeroOctets 31
    let sig := fitTo 96 (Config.idSign c.free (sha384 body))
    answer 0 (body ++ sig) { c with free := c.free + 1 }

/-! ### Debug authorisation (R484) -/

/-- DBGCHAL. -/
def dbgChal (args : List Octet) (c : Chip) : Chip :=
  if !args.isEmpty then answer 3 [] c
  else
    let n := octets 48 (fun i => (Config.entropy c.free i).toNat)
    answer 0 n { c with sec := { c.sec with nonce := some n, nonceAt := c.tally }, free := c.free + 1 }

/-- The open nonce has expired (R484). -/
def nonceOld (c : Chip) : Bool := decide (2 ^ 35 ≤ (c.tally - c.sec.nonceAt).toNat)

/-- DBGRESP. -/
def dbgResp (args : List Octet) (c : Chip) : Chip :=
  let pub := args.drop 96
  if args.length ≠ 193 then commandFailed 8 3 c
  else match (if nonceOld c then none else c.sec.nonce) with
    | none => commandFailed 8 0o12 c
    | some n =>
      let c := dropNonce c
      let slots := [8, 9, 10, 11].filter (fun s => written c s && debugAccepted c (s - 8))
      if !slots.any (fun s => sha384 pub == hashOf c s) then dbgResult 4 c
      else if !ecdsaOk pub (sha384 (n ++ devId)) (args.take 96) then dbgResult 5 c
      else dbgResult 0 c

/-- DBGPASS. -/
def dbgPass (args : List Octet) (c : Chip) : Chip :=
  if args.length = 0 ∨ 64 < args.length then commandFailed 9 3 c
  else dbgResult (if sha384 args == pwdHash then 0 else 4) c

/-- RELOCK. -/
def relock (args : List Octet) (c : Chip) : Chip :=
  if !args.isEmpty then answer 3 [] c else answer 0 [] (setDbg false c)

/-- NONCE_EXPIRY. -/
def nonceExpiry (c : Chip) : Chip := if nonceOld c then dropNonce c else c

/-! ### Tamper (R485, R486) -/

/-- TAMPER_RESPONSE: source 0 VGLITCH, 1 CGLITCH, 2 TEMP, 3 PIN becomes active. -/
def tamper (src : BitVec 2) (c : Chip) : Chip :=
  let s := src.toNat
  if c.sec.active.contains s then c
  else
    let c := { c with sec := { c.sec with active := c.sec.active ++ [s], tlog := c.sec.tlog ++ [s] } }
    if c.pwr.off then c
    else
      let c := secureWipe (lockDebug { c with sec := { c.sec with tamperSince := true } })
      let c := c.raise pgThonos tvTamper
      let c := if c.flag pgThonos 3 23 then answer 0o13 [] c else c
      { c with sec := { c.sec with afterWipe := if c.sec.treset then some false else none } }

/-- SECURE_WIPE_DONE (R289), with what waited for it: the answer of LIFECYCLE and the reset that Thonos requests (R477, R486). -/
def wipeEnd (c : Chip) : Chip :=
  if !bankWiping c 7 then c
  else
    let due := c.sec.afterWipe
    let c := wipeDone c
    match due with
    | none => c
    | some lc =>
      let c := { c with sec := { c.sec with afterWipe := none } }
      deviceReset 5 (if lc then answer 0 [] c else c)

/-- TAMPER_CLEAR. -/
def tamperClear (src : BitVec 2) (c : Chip) : Chip :=
  { c with sec := { c.sec with active := c.sec.active.filter (fun s => s != src.toNat) } }

end Sys2Proof.Machine
end

