-- ==== Sys2Proof/Machine/Pages.lean ====
section
/-!
DEFINITION. Reads and writes of the register slots of the block pages, with locks, refusals and side effects
(R46 to R61, and the register tables of the chapters).
-/
namespace Sys2Proof.Machine

/-! ### Banks off and on (R287, R288) -/

/-- A write of CTRL.PDOWN that is not refused. -/
def bankPdown (b : Nat) (v : Bool) (c : Chip) : Chip :=
  if c.flag (pgBank b) 2 0 == v then c
  else
    let c := c.setFlag (pgBank b) 2 0 v
    if v then (if bankOn c b && !bankClearing c b then c.setFld (pgBank b) 3 3 2 1 else c)
    else (if c.fld (pgBank b) 3 3 2 = 2 then bankWake b c else c)
/-- BANK_OFF: the accepted accesses have completed, and the storage goes OFF; a PDOWN of 0 wakes it. -/
def bankOff (b : Nat) (c : Chip) : Chip :=
  if c.fld (pgBank b) 3 3 2 = 1 ∧ c.mem.held.all (fun x => x.1 != b) = true then
    let c := c.setFld (pgBank b) 3 3 2 2
    if c.flag (pgBank b) 2 0 then c else bankWake b c
  else c

/-! ### Which pages answer (R57, R59, R410) -/

/-- The page's island is closing or off, or the gateway answers for its die (R32, R57, R313, R314, R410). -/
def pageOff (c : Chip) (p : Nat) : Bool :=
  if 1024 ≤ p ∧ p < 3072 then
    c.mode == modeQuiescent ||
      (match pageBlock p with
       | (.fold, i) => !c.flag p 16 18 && !(c.flag pgFlock 3 0 && decide (i < 960))
       | _ => false)
  else match pageBlock p with
    | (.tile, t) => tileOff c t
    | (.collie, e) => colOff c e
    | (.pcie, h) => h == 1 && !bifurcated c
    | _ => false

/-- An access to the page is answered with GONE. The page of a bank stays powered while its storage is off (R287), so it answers at a stop
that is CLOSING or OFF. -/
def pageGone (c : Chip) (p : Nat) : Bool :=
  pageOff c p || (match servingStop p with | some s => circulates c s | none => false)

/-! ### Reads -/

/-- HUB.PART (R60). -/
def partWord : Word :=
  withField (withField (withField (withField 0 27 9 1) 9 18 7236) 4 2 (if Config.isE192 then 1 else 0)) 0 4 (Config.factory 15 0)
/-- ID (R51). -/
def idWord (p : Nat) : Word :=
  withField (withField (withField 0 27 9 (pageBlock p).1.code) 18 9 (pageInst p)) 15 3 (pageLoc p)
/-- STOP.LOC (Table 10-7, Table 10-1). -/
def locWord (p : Nat) : Word :=
  let s := ((p - 64) / 16, (p - 64) % 16)
  withField (withField (withField 0 32 2 s.1) 28 4 s.2) 25 3 (stopKind s)

/-- CTU.STAT and CHSTAT (Table 8-7). -/
def ctuStat (c : Chip) (die p : Nat) : Word :=
  let busy := (List.range 16).foldl (fun n ch => if (c.chan die p ch).st ≠ 0 then n + 2 ^ ch else n) 0
  withField (withField (c.reg (pgCtu die p) 3) 16 4 (slotsUsed c die p)) 0 16 busy

/-- What slot s of page p reads as (Thonos reads any slot), without the side effects of a read. -/
def slotValue (p s : Nat) (c : Chip) : Word :=
  if s = 0 then (if (pageBlock p).1 = .unlisted then 0 else idWord p)
  else if s = 1 then (if (pageBlock p).1 = .unlisted then 0 else Config.revFuse p &&& 0xffffc0000)
  else match pageBlock p with
    | (.unlisted, _) => 0
    | (.hub, _) => match s with
      | 16 => partWord
      | 18 => withField (c.reg p 18) 6 1 (c.linked && c.voteState == 2).toNat
      | 25 => c.tally.setWidth 36
      | 26 => c.tallyCap.setWidth 36
      | _ => c.reg p s
    | (.flock, _) => if c.linked && decide (18 ≤ s) && decide (s ≤ 20) then 0 else c.reg p s
    | (.evh, _) =>
      if s = 17 then c.route (c.fld p 16 0 11)
      else if 32 ≤ s ∧ s < 64 then levelWord c (s - 32)
      else if s = 64 ∨ s = 65 then swevWord c
      else if 72 ≤ s ∧ s < 80 then vorWord c (s - 72)
      else c.reg p s
    | (.aon, _) =>
      if s = 23 ∨ s = 24 then marginEntry c (c.fld p 22 0 11) (s - 23) else c.reg p s
    | (.tile, t) => match s with
      | 3 => tileStat c t
      | 23 => cellVal c t
      | 26 => BitVec.ofNat 36 (c.tile t).tck.n
      | 27 => BitVec.ofNat 36 (c.tile t).sin.length
      | 28 => BitVec.ofNat 36 (c.tile t).sout.length
      | _ => c.reg p s
    | (.collie, e) =>
      if s = 3 then withField (c.reg p 3) 0 16 (collieBusy c e)
      else if s = 21 then psRead c e
      else if s = 23 then c.reg p 22
      else if 48 ≤ s ∧ s < 64 then collieChstat c e (s - 48)
      else if 128 ≤ s ∧ s < 256 then (if windowOpen c e ((s - 128) / 8) then ((c.cch e ((s - 128) / 8)).inq.headD 0) else 0)
      else c.reg p s
    | (.thonos, _) => if s = 3 then thonosStat c else c.reg p s
    | (.gander, _) =>
      if s = 3 then
        withField (withField (c.reg p 3) 4 1 c.dbg.cmd.isSome.toNat) 0 4
          (cores4.foldl (fun n k => if c.halted k then n + 2 ^ k else n) 0)
      else c.reg p s
    | (.stop, i) =>
      if s = 3 then withField (c.reg p 3) 0 3 (stopMode c (i / 16, i % 16)) else if s = 16 then locWord p else c.reg p s
    | (.fold, i) => match s with
      | 16 => withField (withField (withField (c.reg p 16) 32 2 (i / 240)) 28 4 (i / 24 % 10)) 23 5 (i % 24)
      | 32 => foldClk c i
      | 33 => foldMargin c i
      | _ => c.reg p s
    | (.ctu, i) =>
      if s = 3 then ctuStat c (i / 9) (i % 9)
      else if 32 ≤ s ∧ s < 48 then withField (c.reg p s) 33 3 (c.chan (i / 9) (i % 9) (s - 32)).st
      else c.reg p s
    | _ => c.reg p s

/-- Slots that serve the initiator: slots 0 to 3 of the THONOS page and of the page of the secure bank for others (R58). -/
def slotOpen (who : Who) (p s : Nat) : Bool := who == .thonos || (p != 58 && p != 55) || decide (s ≤ 3)

/-- A read of slot s of page p: its value and its side effects (TALLYL capture, RP fields). -/
def readSlot (who : Who) (p s : Nat) (c : Chip) : Word × Chip :=
  if !slotOpen who p s then (0, c)
  else
    let v := slotValue p s c
    match pageBlock p with
    | (.hub, _) => if s = 25 then (v, { c with tallyCap := (c.tally >>> 36).setWidth 28 }) else (v, c)
    | (.collie, e) => if 128 ≤ s ∧ s < 256 then windowRead e ((s - 128) / 8) c else (v, c)
    | _ => (v, c)

/-! ### Refusals (R53, R56) -/

def isHostRoot (who : Who) : Bool := who == .host 0 || who == .host 2
def isHost : Who → Bool
  | .host _ => true
  | _ => false
def isCore : Who → Bool
  | .core _ => true
  | _ => false

/-- Slots that append to a queue or a stream (R56). -/
def windowSlot (p s : Nat) : Bool :=
  match (pageBlock p).1 with
  | .collie => decide (128 ≤ s) && decide (s < 256)
  | .tile => decide (128 ≤ s) && decide (s < 192)
  | _ => false

/-- A lock protects the slot (R56, R211). -/
def lockedSlot (c : Chip) (p s : Nat) : Bool :=
  let lock (b : Nat) : Bool := c.flag p 9 b
  if s = 2 then lock 0 else if s = 5 then lock 1 else if s = 8 then lock 2 else if s = 7 then lock 4
  else if s < 16 then false
  else
    (match slotSpec p s with
     | some e => (e.rw != 0 || e.w1s != 0 || e.wo != 0) && !windowSlot p s && lock 3
     | none => false) ||
    (match (pageBlock p).1 with
     | .mseq => decide (27 ≤ s) && decide (s ≤ 33) && lock 5
     | _ => false)

/-- MCCMDk may act (R457). -/
def mccmdOk (c : Chip) (k : Nat) : Bool :=
  c.istop k && !(c.linked && c.voteState == 2) && (c.flockCores k).all (fun j => !c.mStopped j) &&
  (c.flockCores k).all (fun j => (activeFolds c j).all (fun f => !c.foldDead f))

/-- Hub control is changing the mode or booting: MODE.BUSY. -/
def modeBusy (c : Chip) : Bool := c.flag pgHub 18 7

/-- The write is not taken: the initiator may not make it, or the mode or the state of the block refuses it (R53). -/
def refusedSlot (who : Who) (p s : Nat) (v : Word) (c : Chip) : Bool :=
  match pageBlock p with
  | (.hub, _) => match s with
    | 18 => !(isHostRoot who || who == .thonos || who == .gander || isCore who) || modeBusy c
    | 19 => c.mode == modeQuiescent
    | 21 => bitAt v 35 && (!isHostRoot who || c.flag p 21 33 || c.flag p 21 34 ||
        !(c.mode == modeLinked || c.mode == modeSplit || c.mode == modeMaint))
    | 23 => !(isHost who || who == .thonos || who == .gander)
    | 24 => c.pwr.target.isSome
    | _ => false
  | (.flock, _) =>
    if 21 ≤ s ∧ s ≤ 24 then
      (c.linked && s != 21) || ((fieldOf v 0 2 == 1 || fieldOf v 0 2 == 2) && !mccmdOk c (s - 21))
    else s == 25 && bitAt v 0 && (c.mode != modeMaint || c.flag p 3 0)
  | (.bw, k) => s == 2 && ((c.linked && k != 0) || c.halted k)
  | (.mseq, k) =>
    let cmd := fieldOf v 0 3
    if s = 2 then
      (c.linked && k != 0) || c.fld p 2 0 3 != 0 || (cmd == 1 && c.mHeld k) || (decide (2 ≤ cmd) && decide (cmd ≤ 5) && !c.mHeld k)
    else if 16 ≤ s ∧ s ≤ 25 then !c.mHeld k
    else if 27 ≤ s ∧ s ≤ 33 then
      who != .thonos || !(c.mode == modeBoot || c.mode == modeMaint) || (c.mseq k).active
    else false
  | (.tile, t) =>
    let st := c.tileState t
    if s = 2 then
      (match bitAt v 0, bitAt v 1 with
       | true, true => true
       | true, false => st == 1
       | false, true => st == 0
       | false, false => false)
    else if s = 17 then
      let named := (List.range 8).filter (fun i => bitAt v i)
      decide (st < 2) || named.isEmpty || named.any (fun i => tileOff c i || c.tileState i != 2)
    else false
  | (.collie, e) =>
    if s = 17 then !mayStartChans c e v
    else if s = 21 then halfActive c e (decide (2048 ≤ c.fld p 20 0 12))
    else if 32 ≤ s ∧ s < 41 then
      let busy (h : Nat) : Bool := decide (h < 16) && (c.cch e h).st != 0
      busy (pinOwner c e (s - 32)) || busy (fieldOf v 4 5)
    else if s = 43 then bitAt v 16 && (c.cch e (fieldOf v 0 4)).st != 0
    else false
  | (.pcie, _) =>
    let e := (s - 16) / 8
    if 16 ≤ s ∧ s < 48 then
      let en := c.flag p (17 + 8 * e) 35
      match (s - 16) % 8 with
      | 0 => en
      | 1 => en && fieldOf v 0 12 != c.fld p (17 + 8 * e) 0 12
      | _ => false
    else false
  | (.bank, b) =>
    if s = 2 then
      (b == 7 && who != .thonos) || (bitAt v 0 && decide (b < 4) && (c.running b || c.halted b))
    else s == 17 && c.flag p 16 35
  | (.thonos, _) => s == 2 && c.flag p 3 23
  | (.gander, _) => (s == 2 || (decide (16 ≤ s) && decide (s ≤ 95))) && (who != .gander || !authorised c)
  | (.stop, i) =>
    let stop := (i / 16, i % 16)
    let kind := fieldOf (locWord p) 25 3
    if s = 2 then
      bitAt v 0 && (kind != 0 || stop == (0, 9) || stop == (0, 10) || stop == (0, 11) || decide (3 ≤ stopMode c stop))
    else s == 17 && stopMode c stop != 2
  | (.ctu, i) =>
    s == 17 && (!flockFormed c || clearingAny c (i / 9) || ((List.range 16).filter (fun ch => bitAt v ch)).any (fun ch => (c.chan (i / 9) (i % 9) ch).st != 0))
  | _ => false

/-- A multiple of `align` that lies within bank `b`. -/
def baseOk (b align : Nat) (v : Word) : Bool := v.toNat % align == 0 && inBank b v.toNat 1

/-- The write would place a reserved encoding in a field (R53). -/
def reservedSlot (p s : Nat) (v : Word) (c : Chip) : Bool :=
  match pageBlock p with
  | (.hub, _) => s == 18 && (fieldOf v 0 3 == 1 || fieldOf v 0 3 == 6)
  | (.flock, _) => decide (21 ≤ s) && decide (s ≤ 24) && fieldOf v 0 2 == 3
  | (.evh, _) => s == 16 && decide (1152 ≤ fieldOf v 0 11)
  | (.aon, _) => (s == 20 && (List.range 4).any (fun k => fieldOf v (5 * k) 5 == 31)) || (s == 22 && decide (1040 ≤ fieldOf v 0 11))
  | (.mseq, _) =>
    (s == 2 && decide (6 ≤ fieldOf v 0 3)) || (s == 26 && decide (4315 < fieldOf v 0 13)) || (s == 29 && decide (fieldOf v 0 13 < 4096))
  | (.drove, _) =>
    -- each direction has one entry a frame slot, so no other entry of the slot can share a link with it
    decide (16 ≤ s) && decide (s < 144) && bitAt v 35 && fieldOf v 31 4 == fieldOf v 27 4
  | (.tile, t) =>
    (s == 18 && v.toNat % 4 != 0) || (s == 19 && !clkOk v) || ((s == 20 || s == 21) && !ppselOk t v) ||
    (s == 22 && (decide (3 < fieldOf v 8 3) || decide (143 < fieldOf v 0 8)))
  | (.collie, _) =>
    (s == 16 && !baseOk 6 0o2000 v) || (s == 20 && v.getLsbD 0) ||
    (decide (32 ≤ s) && decide (s < 41) && decide (16 ≤ fieldOf v 4 5) && decide (fieldOf v 4 5 ≤ 30))
  | (.pcie, _) =>
    (s == 2 && (fieldOf v 0 3 == 1 || fieldOf v 0 3 == 2 || fieldOf v 0 3 == 7)) ||
    (decide (16 ≤ s) && decide (s < 48) &&
      (match (s - 16) % 8 with
       | 0 => !baseOk 4 0o1000 v
       | 2 => decide (c.fld p (s - 1) 0 12 ≤ fieldOf v 0 12)
       | _ => false))
  | (.pf, f) => s == 16 && f != 3 && fieldOf v 0 8 % 2 ^ c.fld p 17 12 4 != 0
  | (.bank, b) => s == 17 && decide (bankWords b ≤ 64 * fieldOf v 0 14)
  | (.gander, _) =>
    (s == 16 && decide (bankWords 4 < fieldOf v 0 20 + 257)) ||
    (decide (32 ≤ s) && decide (s < 96) && s % 2 == 0 && (fieldOf v 30 2 == 3 || (bitAt v 32 && (s - 32) / 2 % 2 == 1)))
  | (.stop, _) => s == 17 && decide (64 < fieldOf v 0 7)
  | (.fold, _) => s == 32 && decide (24 < fieldOf v 18 5)
  | (.ctu, _) => s == 16 && !([0, 1, 2, 3, 4, 5, 6, 8].any (fun b => baseOk b 0o1000 v))
  | _ => false

/-! ### Writes -/

/-- The bits of a write take effect by their access codes: RW takes the value, W1C and W1S clear and set, the rest stay. Clearing
VALID of a log clears MORE (R534). -/
def maskWrite (p s : Nat) (v : Word) (c : Chip) : Chip :=
  match slotSpec p s with
  | none => c
  | some e =>
    let old := c.reg p s
    let new := (old &&& ~~~(e.rw ||| (e.w1c &&& v))) ||| (v &&& e.rw) ||| (v &&& e.w1s)
    let log := decide (16 ≤ s) && e.w1c == 0x800000000 && bitAt v 35
    let new := if log && hasMore p s then new &&& ~~~(0x400000000 : Word) else new
    c.setReg p s new
where
  /-- Logs with a MORE bit. -/
  hasMore (p s : Nat) : Bool :=
    match (pageBlock p).1 with
    | .vote => false
    | .mseq => false
    | .collie => false
    | _ => decide (16 ≤ s)

/-! ### Domains of tiles and engines (R424) -/

def pdomOff (page bit : Nat) (c : Chip) : Chip :=
  levelsOff [page] ((c.resetPages (fun p => p == page)).setFlag pgHub 24 bit true)
/-- TILE_DOMAIN_OFF and TILE_DOMAIN_ON. -/
def tileDomain (t : Nat) (off : Bool) (c : Chip) : Chip :=
  if tileOff c t == off then c
  else if off then pdomOff (pgTile t) (8 + t) (unconfTile t (leaveRun t c))
  else unconfTile t (c.setFlag pgHub 24 (8 + t) false)
/-- COLLIE_DOMAIN_OFF and COLLIE_DOMAIN_ON. -/
def collieDomain (e : Nat) (off : Bool) (c : Chip) : Chip :=
  if colOff c e == off then c
  else if off then pdomOff (pgCollie e) e (closeEngine e c)
  else engineReset e (c.setFlag pgHub 24 e false)
/-- A write of HUB.PDOM that is not refused. -/
def pdomWrite (v : Word) (c : Chip) : Chip :=
  (List.range 8).foldl (fun c i => collieDomain i (bitAt v i) (tileDomain i (bitAt v (8 + i)) c)) c

/-! ### Commands written to a page -/

/-- MCCMDk (R457): REISSUE and FLUSH. -/
def mccmd (k cmd : Nat) (c : Chip) : Chip :=
  let ks := c.flockCores k
  if cmd = 1 then ks.foldl (fun c j => c.setFlag (pgBw j) 3 4 false) c
  else if cmd = 2 then flushTry k (ks.foldl (fun c j => c.setCore j { c.core j with flush := true }) (alignCores k c))
  else c

/-- A write of BW.CTRL (R203, R407, R536). -/
def runWrite (k : Nat) (run : Bool) (c : Chip) : Chip :=
  (c.flockCores k).foldl (fun c j => if run then runRelease j c else runStop j c) (if run then c else alignCores k c)

/-- A retraining (R398): the link recovers, or trains from Detect; with MAXGEN 0 a link that is down stays down, and one that is up cannot
recover (LINK_TRAINING_DONE). -/
def retrain (h : Nat) (c : Chip) : Chip :=
  match c.fld (pgPcie h) 3 0 3 with
  | 2 | 3 => c.setFld (pgPcie h) 3 0 3 3
  | _ => if c.fld (pgPcie h) 2 0 3 = 0 then c else c.setFld (pgPcie h) 3 0 3 1

/-- Key of DMA engine e of half h. -/
def Chip.dma (c : Chip) (h e : Nat) : Dma := SMap.get (fun _ => Dma.idle) c.hst.dmas (h * 4 + e)
def Chip.setDma (c : Chip) (h e : Nat) (x : Dma) : Chip :=
  { c with hst := { c.hst with dmas := SMap.set (fun _ => Dma.idle) c.hst.dmas (h * 4 + e) x } }

/-- DQHEAD and DQTAIL are zero (R389). -/
def dmaRewind (h e : Nat) (c : Chip) : Chip := (c.setReg (pgPcie h) (18 + 8 * e) 0).setReg (pgPcie h) (19 + 8 * e) 0

/-- The end of a descriptor (R389, R393): status word, HEAD, ESTAT, DONE or ERR; an error halts the engine. -/
def dmaEnd (h e code : Nat) (c : Chip) : Chip :=
  let x := c.dma h e
  let p := pgPcie h
  let head := c.fld p (19 + 8 * e) 0 12
  let size := c.fld p (17 + 8 * e) 0 12
  let st := withField (withField (withField (withField 0 35 1 1) 30 5 code) 29 1 x.poison.toNat) 28 1 x.drop8.toNat
  let a := (c.reg p (16 + 8 * e)).toNat + 32 * head + 28
  let c := bankAccess 4 (some (.write ((a - bankBase 4) / 4) st allNonets)) none c
  let c := c.setReg p (19 + 8 * e) (BitVec.ofNat 36 (if size = 0 then 0 else (head + 1) % size))
  let good := decide (code ≤ 1)
  let c := c.setReg p (20 + 8 * e) (withField (withField 0 33 3 (if good then 0 else 3)) 28 5 code)
  let irq := bitAt (x.words.getD 4 0) 27
  let c := c.setDma h e { Dma.idle with halted := !good }
  if good then (if irq then c.raise p (8 + e) else c) else c.raise p (12 + e)

/-- A write of DQCFG (R389): EN starts, resumes or stops the engine; SIZE written while EN = 0 rewinds the queue. -/
def dqcfgWrite (h e : Nat) (v : Word) (c : Chip) : Chip :=
  let p := pgPcie h
  let s := 17 + 8 * e
  let was := c.flag p s 35
  let on := bitAt v 35
  let sized := !was && (!on || fieldOf v 0 12 != c.fld p s 0 12)
  let c := maskWrite p s v c
  let c := if sized then dmaRewind h e c else c
  let c := if was && !on && !(c.dma h e).words.isEmpty then dmaEnd h e 0o14 (c.abandon (c.dma h e).xact) else c
  if on then (c.setDma h e { c.dma h e with halted := false }).setFld p (20 + 8 * e) 33 3
      (if (c.dma h e).words.isEmpty then 0 else c.fld p (20 + 8 * e) 33 3)
  else c

/-- Who gives Thonos a command (Table 17-7). -/
def senderNo : Who → Nat
  | .host f => if f = 0 ∨ f = 2 then 0 else 3
  | .core _ => 1
  | .gander => 2
  | _ => 3

/-- A write of CTRL. -/
def ctrlWrite (who : Who) (p : Nat) (v : Word) (c : Chip) : Chip :=
  match pageBlock p with
  | (.evh, _) => if bitAt v 0 then (c.setFlag p 2 0 true).setFlag p 3 0 true else c
  | (.bw, k) => runWrite k (bitAt v 0) c
  | (.wdg, k) =>
    let c := maskWrite p 2 v c
    if bitAt v 0 then c else wdgRestart k c
  | (.mseq, k) =>
    let cmd := fieldOf v 0 3
    if cmd = 0 then c else if c.halted k then c.setFld p 2 0 3 cmd else mseqCommand k cmd c
  | (.tile, t) => if bitAt v 0 then tileLoad t c else if bitAt v 1 then tileUnload t c else c
  | (.pcie, h) =>
    let c := maskWrite p 2 v c
    if bitAt v 3 then retrain h c else c
  | (.bank, b) => bankPdown b (bitAt v 0) c
  | (.thonos, _) => thonosStart (senderNo who) (v &&& 0xfc00fffff) c
  | (.stop, i) =>
    let m := stopMode c (i / 16, i % 16)
    let c := maskWrite p 2 v c
    if bitAt v 0 then (if m = 0 then c.setFld p 3 0 3 1 else c)
    else (if m = 1 ∨ m = 2 then c.setFld p 3 0 3 0 else c)
  | _ => maskWrite p 2 v c

/-- The effect of a write that nothing refuses. -/
def writeEffect (who : Who) (p s : Nat) (v : Word) (c : Chip) : Chip :=
  let spec := slotSpec p s
  match s with
  | 2 => ctrlWrite who p v c
  | 5 => match spec with | some e => c.setEv p 5 (v &&& e.rw) | none => c
  | 6 => match spec with | some e => c.setEv p 6 (c.reg p 6 &&& ~~~(v &&& e.w1c)) | none => c
  | 7 => match spec with | some e => c.raiseMask p (v &&& e.wo) | none => c
  | _ =>
    if s < 16 then maskWrite p s v c
    else match pageBlock p with
      | (.hub, _) => match s with
        | 18 => if fieldOf v 0 3 = 0 then c else modeRequest (fieldOf v 0 3) c
        | 21 => if bitAt v 35 then rmapCommit c else c
        | 23 => if bitAt v 0 then deviceReset 7 c else c
        | 24 => pdomWrite v c
        | _ => maskWrite p s v c
      | (.flock, _) =>
        if 21 ≤ s ∧ s ≤ 24 then mccmd (s - 21) (fieldOf v 0 2) c
        else if s = 25 then (if bitAt v 0 then c.setFlag p 3 0 true else c)
        else maskWrite p s v c
      | (.evh, _) =>
        if s = 17 then routeWrite (who == .thonos) v c
        else if s = 64 then swevWrite v false c
        else if s = 65 then swevWrite v true c
        else if 66 ≤ s ∧ s < 70 then timerArm (s - 66) v c
        else if s = 70 then vack (fieldOf v 0 8) c
        else maskWrite p s v c
      | (.wdg, k) =>
        if s = 16 then wdgReload k (maskWrite p 16 v c)
        else if s = 18 then (if bitAt v 0 then wdgKick k c else c)
        else maskWrite p s v c
      | (.mseq, k) =>
        if 30 ≤ s ∧ s ≤ 32 then
          c.modMseq k (fun m =>
            let lo := 36 * (s - 30)
            { m with csdata := (m.csdata &&& ~~~((0xfffffffff : BitVec 108) <<< lo)) ||| ((v.setWidth 108) <<< lo) })
        else if s = 33 then csCommit k v c
        else maskWrite p s v c
      | (.tile, t) =>
        if s = 17 then tileGo t v c
        else if 128 ≤ s ∧ s < 192 then sinAppend t [v] c
        else maskWrite p s v c
      | (.collie, e) =>
        if s = 17 then collieStart e v c
        else if s = 18 then collieStop e v c
        else if s = 19 then swapWrite e v c
        else if s = 21 then psWrite e v c
        else if s = 23 then c.setReg p 22 (c.reg p 22 ||| (v &&& 0xffff))
        else if s = 24 then dbellWrite e v c
        else if s = 26 then armWrite e v c
        else if s = 27 then syncWrite v c
        else if 28 ≤ s ∧ s < 32 then tcmpWrite e (s - 28) v c
        else if 32 ≤ s ∧ s < 41 then pincfgWrite e (s - 32) (v &&& 0x1fc) c
        else if s = 43 then chcmdWrite e v c
        else if 128 ≤ s ∧ s < 256 then windowAppend e ((s - 128) / 8) [v] c
        else maskWrite p s v c
      | (.pcie, h) =>
        if 16 ≤ s ∧ s < 48 then
          match (s - 16) % 8 with
          | 0 => dmaRewind h ((s - 16) / 8) (maskWrite p s v c)
          | 1 => dqcfgWrite h ((s - 16) / 8) v c
          | _ => maskWrite p s v c
        else maskWrite p s v c
      | (.pf, f) => if f = 3 ∧ s = 16 then c else maskWrite p s v c
      | (.ctu, i) =>
        if s = 17 then chstart (i / 9) (i % 9) v c
        else if s = 18 then chabort (i / 9) (i % 9) v c
        else maskWrite p s v c
      | _ => maskWrite p s v c

/-- A write to a slot that has no writable field: RO, reserved or undefined (R50, R53). Slots 16 to 95 of the GANDER page refuse
writes whatever they hold (R512). -/
def plainSlot (p s : Nat) : Bool :=
  match slotSpec p s with
  | some e => e.rw == 0 && e.w1c == 0 && e.w1s == 0 && e.wo == 0 && s != 2 && s != 5 && s != 7
  | none => !(p == 59 && decide (16 ≤ s) && decide (s ≤ 95))

/-- A write of slot s of page p (R50, R53, R56, R58). -/
def writeSlot (who : Who) (p s : Nat) (v : Word) (c : Chip) : Chip :=
  let voted := match who with | .core k => p == pgHub && s == 18 && c.linked && k != 0 | _ => false
  if (pageBlock p).1 = .unlisted ∨ voted = true then c
  else if !slotOpen who p s then c.refuse p s 2
  else if plainSlot p s then c
  else if lockedSlot c p s || refusedSlot who p s v c then c.refuse p s 2
  else if reservedSlot p s v c then c.refuse p s 1
  else writeEffect who p s v c

/-- How a store of one word to the slot is answered before it takes effect: 0 OK, 1 GONE, 3 FAULT, 7 it waits for room
(R57, R340, R347, R361, R362). -/
def slotStatus (p s : Nat) (c : Chip) : Nat :=
  if pageGone c p then 1
  else match pageBlock p with
    | (.tile, t) =>
      if 128 ≤ s ∧ s < 192 then (if c.tileState t ≠ 3 then 1 else if sinRoom c t = 0 then 7 else 0) else 0
    | (.collie, e) =>
      if 128 ≤ s ∧ s < 256 then
        (if !windowOpen c e ((s - 128) / 8) then 3 else if windowRoom c e ((s - 128) / 8) = 0 then 7 else 0)
      else 0
    | _ => 0

/-- A write by a command that names the register: an access answered with GONE changes nothing (R57), and a write that waits or
is refused with FAULT has no effect. -/
def pageWrite (who : Who) (p s : Nat) (v : Word) (c : Chip) : Chip :=
  if c.pwr.off || slotStatus p s c != 0 then c else writeSlot who p s v c

end Sys2Proof.Machine
end

