-- ==== Sys2Proof/Machine/Ring.lean ====
section
/-!
DEFINITION. Serving a ring packet at its target, responses, pass-through, timeouts and stream slots (R291 to R316).
-/
namespace Sys2Proof.Machine

/-! ### Opcodes and statuses (Tables 10-3, 10-4) -/

def opRd : Nat := 0
def opWr : Nat := 1
def opWrp : Nat := 2
def opAadd : Nat := 3
def opAswap : Nat := 4
def opLdr : Nat := 5
def opStc : Nat := 6
def opCop : Nat := 7
def opData : Nat := 8
def opAck : Nat := 9
def opCopr : Nat := 10
def opStrm : Nat := 12

def stOk : Nat := 0
def stGone : Nat := 1
def stAddr : Nat := 2
def stFault : Nat := 3
def stLost : Nat := 4
def stCerr : Nat := 5

/-- WRP and STRM have no answer. -/
def isPosted (opc : Nat) : Bool := opc == opWrp || opc == opStrm

/-- The initiator behind an INIT number (Table 10-5). A host link packet does not name its function: half 0 stands for PF0 and
half 1 for PF2. -/
def whoOf (i : Nat) : Who :=
  if i < 4 then .core i else if i = 4 then .host 0 else if i = 5 then .host 2 else if i < 14 then .tile (i - 6)
  else if i < 22 then .collie (i - 14) else if i = 22 then .gander else if i = 23 then .thonos else if i < 28 then .ctu (i - 24) else .hub
def initOf : Who → Nat
  | .core k => k | .host f => if f < 2 then 4 else 5 | .dma h => 4 + h | .tile t => 6 + t | .collie e => 14 + e
  | .gander => 22 | .thonos => 23 | .ctu d => 24 + d | .hub => 28

def Srv.of (status : Nat) : Srv := ⟨status, [], []⟩

/-- A refusal: the answer, or for a posted packet the drop at its stop. -/
def refuseAt (s : Nat × Nat) (opc status : Nat) (c : Chip) : Option Srv × Chip :=
  if isPosted opc then (some (Srv.of stOk), stopDrop s c) else (some (Srv.of status), c)

/-! ### HBM at a gateway (R267, R269, R276, R277, R313, R314) -/

def hbmServe (opc : Nat) (k : Pkt) (sev : List Sev) (c : Chip) : Option Srv × Chip :=
  let a := k.addr.toNat
  let die := a / dieSize
  let o := a % dieSize
  let n := k.len.toNat
  let gate := (k.dst.1, 4 * die)
  let req := 9 + k.dst.1
  if 3 ≤ opc ∧ isPosted opc = false then (some (Srv.of stFault), c)
  else if isPosted opc = true ∧ n = 0 then (some (Srv.of stOk), c)
  else if 4 ≤ die ∨ dieSize < o + n then
    if isPosted opc then (some (Srv.of stOk), stopDrop (k.dst.1, k.dst.2) c) else (some (Srv.of stAddr), c)
  else if [0, 1].any (fun m => !c.flag (pgHbmc die m) 3 0) then refuseAt gate opc stGone c
  else if !hbmUp c die then
    if isPosted opc then (some (Srv.of stOk), stopDrop gate (c.count (pgHbmc die (stackOf o)) 20 1)) else (some (Srv.of stGone), c)
  else if opc = opRd then
    let r := c.hbmRead die o n 1 req sev
    (some ⟨stOk, r.1.map (fun x => (x.setWidth 8).setWidth 9), (List.range n).filter (fun i => (r.1.getD i 0).getLsbD 8)⟩, r.2)
  else
    let data := (List.range n).map (fun i =>
      let x := (k.data.getD i 0).setWidth 8
      if k.mask.contains i then (1#1 ++ x : BitVec 9) else (0#1 ++ x : BitVec 9))
    (some (Srv.of stOk), c.hbmWrite die o req data)

/-! ### Banks (R281 to R284, R288) -/

/-- The words that a run of `n` nonets from `a` touches, each with its nonets. -/
def runWords (a n : Nat) : List (Nat × List Nat) :=
  (List.range (if n = 0 then 0 else (a % 4 + n + 3) / 4)).map (fun i =>
    let w := a - a % 4 + 4 * i
    (w, allNonets.filter (fun j => decide (a ≤ w + j) && decide (w + j < a + n))))

/-- A read of a run of nonets of a bank: data, failing elements. -/
def bankRun (b src a n : Nat) (c : Chip) : Srv × Chip :=
  let data := (List.range n).map (fun i => (c.cell (a + i)).setWidth 9)
  let mask := (List.range n).filter (fun i => nonetBad (c.cell (a + i)))
  (⟨stOk, data, mask⟩, (runWords a n).foldl (fun c w => (c.bankRead b w.1 src w.2).2.2) c)

/-- A write of a run of nonets, poisoned ones with inverted parity (R280, R299). -/
def bankPut (a : Nat) (data : List (BitVec 9)) (mask : List Nat) (c : Chip) : Chip :=
  (runWords a data.length).foldl (fun c w =>
    let v := w.2.foldl (fun (v : Word) j => v ||| (((data.getD (w.1 + j - a) 0).setWidth 36) <<< (9 * j))) 0
    let bad := w.2.filter (fun j => mask.contains (w.1 + j - a))
    (c.bankWrite w.1 v (w.2.filter (fun j => !mask.contains (w.1 + j - a))) false).bankWrite w.1 v bad true) c

/-- Bank b drops a posted write (R287, R313). -/
def bankDrop (b : Nat) (s : Nat × Nat) (c : Chip) : Chip := stopDrop s (bankDropw b c)

/-- The stop of a page or of a bank; a gateway stands on the packet's ring. -/
def stopOf (k : Pkt) (p : Nat) : Nat × Nat := (servingStop p).getD k.dst

/-- An atomic, LDR or STC of initiator i at word `a` of bank b (R180, R181, R283, R284). -/
def bankAtomic (opc b src a i : Nat) (v : Word) (c : Chip) : Srv × Chip :=
  let bad := c.badNonets a
  let r := c.bankRead b a src allNonets
  let old : Srv := ⟨stOk, nonetsOf r.1, bad⟩
  if opc = opAadd then (old, r.2.2.bankWrite a (r.1 + v) allNonets false)
  else if opc = opAswap then (old, r.2.2.bankWrite a v allNonets false)
  else if opc = opLdr then (old, r.2.2.reserve i a (!bad.isEmpty))
  else
    let x := c.storeCond i a v
    (⟨stOk, nonetsOf (ofBool x.1), []⟩, x.2)

/-- A packet at a port of bank b: the owner's own (`own`) or the ring port (R62, R279, R288, R297). -/
def bankServe (opc b : Nat) (own : Bool) (k : Pkt) (c : Chip) : Option Srv × Chip :=
  let a := k.addr.toNat
  let n := k.len.toNat
  let s := stopOf k (pgBank b)
  let atomic := decide (3 ≤ opc) && !isPosted opc
  if b = 7 ∧ own = false then refuseAt s opc stFault c
  else if opc = opCop ∨ inBank b (a - a % 4) ((a % 4 + n + 3) / 4) = false then refuseAt s opc stFault c
  else if !bankOn c b then
    if isPosted opc then (some (Srv.of stOk), if own then bankDropw b c else bankDrop b s c) else (some (Srv.of stGone), c)
  else if atomic && (decide (a % 4 ≠ 0) || b == 7 || !(n == 0 || n == 4)) then (some (Srv.of stFault), c)
  else if bankClearing c b || bankWiping c b then (none, c)
  else if opc = opRd then let r := bankRun b (if own then 0 else 1) a n c; (some r.1, r.2)
  else if n = 0 then (some (Srv.of stOk), c)
  else if !atomic then (some (Srv.of stOk), bankPut a (k.data.take n) k.mask c)
  else let r := bankAtomic opc b (if own then 0 else 1) a k.init (wordOf k.data) c; (some r.1, r.2)

/-! ### Register pages (R46 to R50, R299, R347, R361) -/

/-- Words of a payload. -/
def payloadWords (k : Pkt) : List Word := (List.range (k.len.toNat / 4)).map (fun i => wordOf ((k.data.drop (4 * i)).take 4))

/-- A write packet to the stream input of tile t. -/
def tilePacket (opc t : Nat) (k : Pkt) (s : Nat × Nat) (c : Chip) : Option Srv × Chip :=
  if c.tileState t ≠ 3 then refuseAt s opc stGone c
  else if k.len.toNat % 4 ≠ 0 ∨ k.addr.toNat % 4 ≠ 0 then
    if isPosted opc then (some (Srv.of stOk), (c.count (pgTile t) 25 1).raise (pgTile t) 6) else (some (Srv.of stFault), c)
  else if sinRoom c t < k.len.toNat / 4 then (none, c)
  else (some (Srv.of stOk), sinAppend t (payloadWords k) c)

/-- A write packet to the window of channel h of engine e. -/
def colliePacket (opc e h : Nat) (k : Pkt) (c : Chip) : Option Srv × Chip :=
  let n := k.len.toNat / 4
  if k.len.toNat % 4 ≠ 0 ∨ k.addr.toNat % 4 ≠ 0 ∨ (c.cch e h).depth < n ∨ windowOpen c e h = false then
    if isPosted opc then (some (Srv.of stOk), (c.count (pgCollie e) 41 1).raise (pgCollie e) 35) else (some (Srv.of stFault), c)
  else if windowRoom c e h < n then (none, c)
  else (some (Srv.of stOk), windowAppend e h (payloadWords k) c)

/-- A packet of any kind addressed to the stream input of a tile outside RUN (R340). -/
def streamShut (p s : Nat) (c : Chip) : Bool :=
  match pageBlock p with
  | (.tile, t) => decide (128 ≤ s ∧ s < 192) && c.tileState t != 3
  | _ => false

/-- Each stream input and window that a run of slots enters has room for the words it takes (R347, R361). -/
def windowsTake (slots : List (Nat × Nat)) (c : Chip) : Bool :=
  slots.all (fun q =>
    match pageBlock q.1 with
    | (.tile, t) =>
      !(decide (128 ≤ q.2 ∧ q.2 < 192)) ||
      decide ((slots.filter (fun r => r.1 == q.1 && decide (128 ≤ r.2 ∧ r.2 < 192))).length ≤ sinRoom c t)
    | (.collie, e) =>
      !(decide (128 ≤ q.2 ∧ q.2 < 256)) ||
      decide ((slots.filter (fun r => r.1 == q.1 && decide (128 ≤ r.2 ∧ r.2 < 256) && r.2 / 8 == q.2 / 8)).length
        ≤ windowRoom c e ((q.2 - 128) / 8))
    | _ => true)

/-- A packet at a page. A run that starts below a window and enters it writes its slots one by one, once the window has room for all its
words (log entry 14). -/
def pageServe (opc : Nat) (who : Who) (k : Pkt) (c : Chip) : Option Srv × Chip :=
  let at0 := k.addr.toNat - 0o200000000
  let p := at0 / 0o4000
  let s0 := at0 % 0o4000 / 4
  let n := k.len.toNat
  let s := stopOf k p
  let slots := (List.range (n / 4)).map (fun i => (p + (s0 + i) / 512, (s0 + i) % 512))
  let write := opc == opWr || isPosted opc
  if isPosted opc = true ∧ n = 0 then (some (Srv.of stOk), c)
  else if pageOff c p || streamShut p s0 c then refuseAt s opc stGone c
  else if opc = opRd then
    if n % 4 ≠ 0 ∨ k.addr.toNat % 4 ≠ 0 then (some (Srv.of stFault), c)
    else
      let r := slots.foldl (fun (x : List (BitVec 9) × Chip) q =>
        let w := readSlot who q.1 q.2 x.2
        -- a read by Gander with TAG[5] = 0 is a peek (R510)
        let peek := k.init == 22 && !k.tag.getLsbD 5
        let v := if peek && slotOpen who q.1 q.2 then slotValue q.1 q.2 x.2 else w.1
        (x.1 ++ nonetsOf v, if peek then x.2 else w.2)) ([], c)
      (some ⟨stOk, r.1, []⟩, r.2)
  else if !write then (some (Srv.of stFault), c)
  else if n = 0 then (some (Srv.of (if k.addr.toNat % 4 ≠ 0 then stFault else stOk)), c)
  else if !k.mask.isEmpty then refuseAt s opc stFault c
  else match pageBlock p with
    | (.tile, t) =>
      if 128 ≤ s0 ∧ s0 < 192 then tilePacket opc t k s c
      else plainWrite s slots c
    | (.collie, e) =>
      if 128 ≤ s0 ∧ s0 < 256 then colliePacket opc e ((s0 - 128) / 8) k c
      else plainWrite s slots c
    | _ => plainWrite s slots c
where
  plainWrite (s : Nat × Nat) (slots : List (Nat × Nat)) (c : Chip) : Option Srv × Chip :=
    let st := slots.map (fun q => slotStatus q.1 q.2 c)
    if k.len.toNat % 4 ≠ 0 ∨ k.addr.toNat % 4 ≠ 0 ∨ st.contains 3 = true then refuseAt s opc stFault c
    else if st.contains 1 then refuseAt s opc stGone c
    else if st.contains 7 || !windowsTake slots c then (none, c)
    else (some (Srv.of stOk), ((slots.zip (payloadWords k)).foldl (fun c q => writeSlot who q.1.1 q.1.2 q.2 c) c))

/-! ### Serving -/

/-- The bank whose owner port serves an initiator (Table 9-3). -/
def ownerBank : Who → Option Nat
  | .core k => some k
  | .host _ => some 4
  | .tile _ => some 5
  | .collie _ => some 6
  | .thonos => some 7
  | .gander => some 8
  | _ => none

/-- A packet is served at its target; nothing is answered while it waits there (R288, R347, R361). -/
def serve (opc : Nat) (k : Pkt) (sev : List Sev) (c : Chip) : Option Srv × Chip :=
  if !k.nonet then hbmServe opc k sev c
  else
    let a := k.addr.toNat
    match bankAt a with
    | some b => bankServe opc b false k c
    | none =>
      if 0o200000000 ≤ a ∧ a < 0o240000000 then pageServe opc (whoOf k.init) k c
      else if isPosted opc = true ∧ k.len.toNat = 0 then (some (Srv.of stOk), c)
      else refuseAt (k.dst.1, k.dst.2) opc stFault c

/-- The stop at which a KIND 1 address is served; none for the pages behind gateways (R292). -/
def addrStop (a : Nat) : Option (Nat × Nat) :=
  match bankAt a with
  | some b => servingStop (pgBank b)
  | none => if 0o200000000 ≤ a ∧ a < 0o240000000 then servingStop ((a - 0o200000000) / 0o4000) else some (0, 9)

/-- The ring on which initiator i injects a request (R293): an HBM request on DROVE-C where i has a stop there, a request to a fold-die page
on i's lowest-numbered ring, any other on the ring of its serving stop where i has a stop there. -/
def requestRing (i : Nat) (nonet : Bool) (a : Nat) : Nat :=
  let r := if nonet then ((addrStop a).map (fun s => s.1)).getD (initStop i).1 else 2
  if (stopOn i r).isSome then r else (initStop i).1

/-- A request as initiator `who` forms it, on the channel of its stop (R293, R300). -/
def request (who : Who) (nonet : Bool) (a n : Nat) (data : List (BitVec 9)) (mask : List Nat) (c : Chip) : Pkt :=
  let i := initOf who
  let r := requestRing i nonet a
  let src := (stopOn i r).getD (initStop i)
  let dst := if nonet then (addrStop a).getD (r, 4 * ((a - 0o200000000) / 0o4000 / 512 - 2)) else (r, 4 * min 3 (a / dieSize))
  { init := i, src := src, dst := dst, tag := 0, nonet := nonet, len := BitVec.ofNat 9 n, addr := BitVec.ofNat 38 a,
    data := data, mask := mask, vc := c.flag (pgStop src.1 src.2) 17 7, status := 0, lap := 0, hdr := 0 }

/-! ### Packets under way -/

/-- Elements of a payload are counted for the initiator (R316). -/
def ringCount (ring i slot n : Nat) (c : Chip) : Chip := c.count (pgDrove ring) (160 + slot + 2 * i) n

/-- The bin of a latency (R316). -/
def histBin (lat : Nat) : Nat :=
  if lat < 16 then 0 else if lat < 32 then 1 else if lat < 64 then 2 else if lat < 128 then 3 else if lat < 256 then 4
  else if lat < 1024 then 5 else if lat < 65536 then 6 else 7

/-- The packets of one source, destination, network and channel keep their order (R306); the stop keeps REQ and GNT in one order (R304). -/
def sameWay (f g : Fly) : Bool :=
  f.k.src == g.k.src && f.k.dst == g.k.dst && (decide (opData ≤ f.opc) && f.opc != opStrm) == (decide (opData ≤ g.opc) && g.opc != opStrm) &&
    f.k.vc == g.k.vc

def Fly.isResponse (f : Fly) : Bool := decide (opData ≤ f.opc) && f.opc != opStrm

def Chip.unfly (c : Chip) (f : Fly) : Chip := { c with ring := { c.ring with flight := c.ring.flight.erase f } }
/-- A packet that is under way changes its lap or reaches its stop. -/
def Chip.refly (c : Chip) (f g : Fly) : Chip :=
  { c with ring := { c.ring with flight := c.ring.flight.replace f g } }
/-- Nothing of the packet's way is before it (R306). -/
def firstOfWay (c : Chip) (f : Fly) : Bool := c.ring.flight.find? (sameWay f) == some f

/-- The response to a request, on its way back (R293, R300, Table 10-3). -/
def respond (opc : Nat) (k : Pkt) (r : Srv) (c : Chip) : Chip :=
  if isPosted opc then c
  else
    let ans := if opc = opWr then opAck else if opc = opCop then opCopr else opData
    c.fly { opc := ans, here := false, cop := none,
            k := { k with src := k.dst, dst := k.src, len := BitVec.ofNat 9 r.data.length, addr := 0, data := r.data, mask := r.mask,
                          status := r.status, lap := 0, hdr := 0 } }

/-- A COP packet reaches its tile: GONE unless the tile runs, else the request is current, or waits for the tile (R340, R344). -/
def copServe (f : Fly) (c : Chip) : Chip :=
  match f.cop with
  | none => c
  | some r =>
    if tileOff c r.tile || c.tileState r.tile != 3 then respond opCop f.k (Srv.of stGone) c
    else
      let r := { r with tag := f.k.tag, vc := f.k.vc }
      let x := c.tile r.tile
      if x.cur.isNone && x.waiting.isEmpty then c.setTile r.tile { x with cur := some (f.k.init, r) }
      else c.setTile r.tile { x with waiting := x.waiting ++ [(f.k.init, r)] }

/-- A request that its stop has ejected is served and answered, or waits at its target. -/
def serveFly (f : Fly) (sev : List Sev) (c : Chip) : Option (Srv × Chip) :=
  if f.opc = opCop then some (Srv.of stOk, copServe f c)
  else match serve f.opc f.k sev c with
    | (none, _) => none
    | (some r, c) => some (r, c)

/-- The response of a request that has been served: a COP has its own later. -/
def answerFly (f : Fly) (r : Srv) (c : Chip) : Chip := if f.opc = opCop then c else respond f.opc f.k r c

/-- A request whose header has been checked reaches its destination stop (R306, R310, R312): it stands behind an earlier packet of its way,
or goes round, or waits at its target, or is served. -/
def arrive (f : Fly) (sev : List Sev) (c : Chip) : Option Srv × Chip :=
  match c.ring.flight.find? (sameWay f) with
  | some g => (none, c.fly { f with here := g.here })
  | none =>
    if circulates c f.k.dst then (none, c.fly { f with k := { f.k with lap := 1 } })
    else match serveFly f sev c with
      | none => (none, c.fly { f with here := true })
      | some (r, c) => (some r, c)

/-! ### Injection (R300, R303, R304, R310) -/

/-- A tag that stop s cannot use: its answer is owed or not yet used, or it is quarantined (R300, R315). -/
def tagTaken (s : Nat × Nat) (t : BitVec 6) (c : Chip) : Bool :=
  c.ring.owed.any (fun e => e.stop == s && e.tag == t) || c.ring.quar.contains (s, t) || c.ring.answers.any (fun x => x.2.dst == s && x.2.tag == t)

/-- The stop holds a request of its block: in HOLDING or PASS (R310), and one that expects an answer at CFG.OUTST or without its tag. -/
def stopHolds (opc : Nat) (k : Pkt) (c : Chip) : Bool :=
  circulates c k.src ||
    (!isPosted opc && (decide (c.fld (pgStop k.src.1 k.src.2) 17 0 7 ≤ (c.ring.owed.filter (fun e => e.stop == k.src)).length) ||
      tagTaken k.src k.tag c))

/-- An applied GNTTAB entry names the packet's source and destination (R303, R304). -/
def granted (c : Chip) (k : Pkt) : Bool :=
  k.src.1 == k.dst.1 && c.ring.grants.any (fun e => e.1 / 128 == k.dst.1 && fieldOf e.2 31 4 == k.src.2 && fieldOf e.2 27 4 == k.dst.2)

/-- The pieces of a run: offset and length, at most `m` elements. -/
def piecesOf (n m : Nat) : List (Nat × Nat) := (List.range ((n + m - 1) / m)).map (fun i => (m * i, min m (n - m * i)))

/-- The packets that a request travels as: a posted write without poison to a granted destination is cut into STRM flits (R304). -/
def packets (opc : Nat) (k : Pkt) (c : Chip) : List (Nat × Pkt) :=
  if opc = opWrp ∧ granted c k = true ∧ k.mask = [] ∧ k.len ≠ 0 then
    (piecesOf k.len.toNat (if k.nonet then 56 else 64)).map (fun q =>
      (opStrm, { k with len := BitVec.ofNat 9 q.2, addr := BitVec.ofNat 38 (k.addr.toNat + q.1), data := (k.data.drop q.1).take q.2 }))
  else [(opc, k)]

/-- The stop at which a packet's header is checked first: XR where it crosses, else its destination (R298). -/
def firstCheck (k : Pkt) : Nat × Nat := if k.src.1 = k.dst.1 then k.dst else (k.src.1, 15)

/-- A request enters its ring: it is counted (R316), an answer is owed to it (R300), and its header is checked once on the way. A discarded
header leaves nothing. -/
def launch (opc : Nat) (k : Pkt) (cop : Option CopReq) (block : Bool) (c : Chip) : Option Fly × Chip :=
  let c := ringCount k.src.1 k.init 0 k.data.length c
  let c := if isPosted opc then c
    else { c with ring := { c.ring with owed := c.ring.owed ++ [{ stop := k.src, tag := k.tag, opc := opc, init := k.init, block := block }] } }
  let h := headerOk (firstCheck k) k.hdr.toNat c
  (if h.1 then some { opc := opc, k := { k with lap := 0, hdr := 0 }, here := false, cop := cop } else none, h.2)

/-- A request enters its ring and reaches its destination stop. -/
def inject (opc : Nat) (k : Pkt) (cop : Option CopReq) (block : Bool) (sev : List Sev) (c : Chip) : Option Srv × Chip :=
  match launch opc k cop block c with
  | (none, c) => (none, c)
  | (some f, c) => arrive f sev c

/-- A request packet reaches its target, unless its initiator's stop holds it (RING_RD to RING_STC, R297). -/
def ringServe (opc : Nat) (k : Pkt) (sev : List Sev) (c : Chip) : Chip :=
  if stopHolds opc k c then c
  else (packets opc k c).foldl (fun c q =>
    match inject q.1 q.2 none false sev c with
    | (some r, c) => respond q.1 q.2 r c
    | (none, c) => c) c

/-- A STRM flit (R304): served as a WRP of one flit when an applied entry names its source and destination. -/
def strm (k : Pkt) (c : Chip) : Chip :=
  if granted c k && k.mask.isEmpty && decide (k.data.length ≤ if k.nonet then 56 else 64) then ringServe opStrm k [] c else c

/-- XR_CROSSING (R294): XR takes a whole packet that crosses, checks its header, and queues it for its next ring; STRM never crosses. -/
def xrCross (opc : Nat) (k : Pkt) (c : Chip) : Chip :=
  if k.src.1 = k.dst.1 ∨ opc = opStrm then c
  else if opc < opData then
    if stopHolds opc k c then c
    else match launch opc k (if opc = opCop then (c.core k.init).cop else none) (opc == opCop) c with
      | (none, c) => c
      | (some f, c) => c.fly f
  else
    let h := headerOk (firstCheck k) k.hdr.toNat c
    if h.1 then h.2.fly { opc := opc, k := { k with lap := 0, hdr := 0 }, here := false, cop := none } else h.2

/-! ### Responses (R307, R312, R315, R316) -/

/-- An answer reaches the block: nothing is owed any more, and the statistics count it. -/
def settleAnswer (k : Pkt) (bin : Nat) (c : Chip) : Chip :=
  let c := { c with ring := { c.ring with owed := c.ring.owed.filter (fun e => !(e.stop == k.dst && e.tag == k.tag)) } }
  (ringCount k.dst.1 k.init 1 k.data.length c).count (pgDrove k.dst.1) (224 + 8 * k.init + bin) 1

/-- What the stop is owed with a tag. -/
def owedAs (s : Nat × Nat) (t : BitVec 6) (c : Chip) : Option Owed := c.ring.owed.find? (fun e => e.stop == s && e.tag == t)
def isOwed (s : Nat × Nat) (t : BitVec 6) (c : Chip) : Bool := (owedAs s t c).isSome

/-- The oldest response of an opcode for stop s is ejected, in the order of its way; a response to no request of the stop is discarded, with
its tag's quarantine (R307, R315), and goes round a stop in reconfiguration (R310). -/
def takeResponse (opc : Nat) (s : Nat × Nat) (lat hdr : Nat) (c : Chip) : Option (Owed × Pkt) × Chip :=
  match c.ring.flight.find? (fun f => f.opc == opc && f.k.dst == s && firstOfWay c f) with
  | none => (none, c)
  | some f =>
    let k := f.k
    if circulates c s && !isOwed s k.tag c then (none, c)
    else
      let h := headerOk s hdr (c.unfly f)
      if !h.1 then (none, h.2)
      else match owedAs s k.tag c with
        | some e => (some (e, k), settleAnswer k (histBin lat) h.2)
        | none => (none, stopLost s { h.2 with ring := { h.2.ring with quar := h.2.ring.quar.erase (s, k.tag) } })

/-- The stop delivers an answer to its block. -/
def Chip.give (c : Chip) (e : Owed) (opc : Nat) (k : Pkt) : Chip :=
  if e.block then { c with ring := { c.ring with answers := c.ring.answers ++ [(opc, k)] } }
  else { c with ring := { c.ring with got := c.ring.got ++ [(opc, k)] } }

/-- RING_DATA and RING_ACK (R307): the response reaches its block. -/
def ringReceive (opc : Nat) (s : Nat × Nat) (lat hdr : Nat) (c : Chip) : Chip :=
  match takeResponse opc s lat hdr c with
  | (none, c) => c
  | (some (e, k), c) => c.give e opc k

/-- REQUEST_TIMEOUT (R315): the stop's request with the tag is answered LOST, and the tag is quarantined. -/
def requestTimeout (s : Nat × Nat) (init : Nat) (tag : BitVec 6) (c : Chip) : Chip :=
  let tout := c.fld (pgDrove s.1) 144 0 24
  match c.ring.owed.find? (fun e => e.stop == s && e.tag == tag && e.init == init) with
  | none => c
  | some e =>
    if tout = 0 then c
    else
      let lost : Pkt :=
        { init := init, src := s, dst := s, tag := tag, nonet := true, len := 0, addr := 0, data := [], mask := [], vc := false,
          status := stLost, lap := 0, hdr := 0 }
      let c := settleAnswer lost (histBin tout) (c.raise (pgStop s.1 s.2) 2)
      ({ c with ring := { c.ring with quar := c.ring.quar ++ [(s, tag)] } }).give e (if e.opc = opWr then opAck else if e.opc = opCop then opCopr else opData) lost

/-! ### Reconfiguration (R310 to R312) -/

/-- STOP_ENTER_PASS (R310): nothing remains to serve or to receive. -/
def enterPass (s : Nat × Nat) (c : Chip) : Chip :=
  if stopMode c s = 1 ∧ c.ring.owed.any (fun e => e.stop == s) = false ∧ c.ring.flight.any (fun f => f.k.dst == s && f.here) = false
  then (c.setFld (pgStop s.1 s.2) 3 0 3 2).raise (pgStop s.1 s.2) 3 else c

/-- The packet of stop s that passes it next: while the stop is in reconfiguration the oldest of those with the fewest laps, else the oldest
request that has nothing of its way before it. -/
def nextPass (s : Nat × Nat) (c : Chip) : Option Fly :=
  let mine := c.ring.flight.filter (fun f => f.k.dst == s && !f.here)
  if circulates c s then
    let mine := mine.filter (fun f => !(f.isResponse && isOwed s f.k.tag c))
    mine.find? (fun f => mine.all (fun g => decide (f.k.lap.toNat ≤ g.k.lap.toNat)))
  else mine.find? (fun f => !f.isResponse && firstOfWay c f)

/-- A packet whose LAP would pass 4 is removed (R312). -/
def lapEnd (f : Fly) (c : Chip) : Chip :=
  if f.opc = opWrp then stopDrop f.k.dst c
  else if f.opc = opStrm ∨ opData ≤ f.opc then stopLost f.k.dst c
  else respond f.opc f.k (Srv.of stGone) c

/-- PASS_THROUGH (R311, R312): a packet for stop s passes it, with its header checked: it advances LAP or is removed, and after the return
to NORMAL it is ejected. -/
def passThrough (s : Nat × Nat) (hdr : Nat) (c : Chip) : Chip :=
  match nextPass s c with
  | none => c
  | some f =>
    let h := headerOk s hdr c
    if !h.1 then h.2.unfly f
    else if circulates c s then
      if f.k.lap.toNat < 4 then h.2.refly f { f with k := { f.k with lap := f.k.lap + 1 } } else lapEnd f (h.2.unfly f)
    else match serveFly f [] (h.2.unfly f) with
      | none => h.2.refly f { f with here := true }
      | some (r, c) => answerFly f r c

/-- A request that waits at its target is served once it can be, after those of its way before it. -/
def retryFly (f : Fly) (c : Chip) : Chip :=
  if firstOfWay c f then
    match serveFly f [] (c.unfly f) with
    | none => c
    | some (r, c) => answerFly f r c
  else c

/-- Every request that waits at a target tries again, in order. -/
def retryAll (c : Chip) : Chip := (c.ring.flight.filter (fun f => f.here)).foldl (fun c f => retryFly f c) c

/-- BANK_CLEAR_DONE: the clear has ended, and what the bank held proceeds; a PDOWN of 1 closes the bank again (R288). -/
def bankClearDone (b : Nat) (c : Chip) : Chip :=
  if bankClearing c b then
    let c := retryAll (bankRelease b (c.setFlag (pgBank b) 3 0 false))
    if c.flag (pgBank b) 2 0 then c.setFld (pgBank b) 3 3 2 1 else c
  else c

/-! ### Transfers of a block -/

/-- What becomes of one request: its stop or its own bank holds it, it is under way with a tag, or it is answered. -/
inductive Sent where
  | held
  | out (stop : Nat × Nat) (tag : BitVec 6)
  | answer (r : Srv)

/-- A free tag of stop s: Gander's peeks use 0 to 31 and its live reads 32 to 63 (R300, R510). -/
def freeTag (k : Pkt) (c : Chip) : Option (BitVec 6) :=
  let tags : List (BitVec 6) := (List.range 64).map (fun i => BitVec.ofNat 6 i)
  tags.find? (fun t => !tagTaken k.src t c && (k.init != 22 || t.getLsbD 5 == k.tag.getLsbD 5))

/-- One request of `who` (R279, R293, R300). A block reaches its own bank through the owner port. The answer is taken at once where nothing
makes the packet wait; the latency is then a free value (log entry 8). -/
def issue (who : Who) (opc : Nat) (k : Pkt) (c : Chip) : Sent × Chip :=
  let own := if k.nonet then (bankAt k.addr.toNat).filter (fun b => ownerBank who == some b) else none
  match own with
  | some b => (match bankServe opc b true k c with
    | (none, _) => (.held, c)
    | (some r, c) => (.answer r, c))
  | none =>
    match freeTag k c with
    | none => (.held, c)
    | some t =>
      let k := { k with tag := t }
      if stopHolds opc k c then (.held, c)
      else if isPosted opc then (.answer (Srv.of stOk), (packets opc k c).foldl (fun c q => (inject q.1 q.2 none true [] c).2) c)
      else match inject opc k none true [] c with
        | (none, c) => (.out k.src t, c)
        | (some r, c) =>
          let c' := respond opc k r c
          if c.ring.flight.any (fun f => f.isResponse && f.k.src == k.dst && f.k.dst == k.src && f.k.vc == k.vc) then (.out k.src t, c')
          else (.answer r, settleAnswer { k with dst := k.src, src := k.dst, data := r.data } ((Config.freeWord c.free).toNat % 8)
            { c with free := c.free + 1 })

/-- The answer that a transfer waits for, once it has come. -/
def takeGot (w : (Nat × Nat) × BitVec 6) (c : Chip) : Option Srv × Chip :=
  match c.ring.answers.find? (fun x => x.2.dst == w.1 && x.2.tag == w.2) with
  | none => (none, c)
  | some x => (some ⟨x.2.status, x.2.data, x.2.mask⟩, { c with ring := { c.ring with answers := c.ring.answers.erase x } })

/-- The requests of a transfer that are still to be made, in order (R307); `go` tells the statuses after which it goes on. -/
def sendRest (who : Who) (go : Nat → Bool) : List (Nat × Pkt) → Xact → Chip → Bool × Xact × Chip
  | [], x, c => (true, x, c)
  | q :: qs, x, c =>
    if x.ans.any (fun r => !go r.status) then (true, x, c)
    else match issue who q.1 q.2 c with
      | (.held, _) => (false, x, c)
      | (.out s t, c) => (false, { x with wait := some (s, t) }, c)
      | (.answer r, c) => sendRest who go qs { x with ans := x.ans ++ [r] } c

/-- A transfer goes on from what has been answered: whether it is over, what has been answered, and the state. -/
def gather (who : Who) (go : Nat → Bool) (reqs : List (Nat × Pkt)) (x : Xact) (c : Chip) : Bool × Xact × Chip :=
  match x.wait with
  | none => sendRest who go (reqs.drop x.ans.length) x c
  | some w =>
    match takeGot w c with
    | (none, _) => (false, x, c)
    | (some r, c) => sendRest who go (reqs.drop (x.ans.length + 1)) { ans := x.ans ++ [r], wait := none } c

/-- The pieces of a run of `n` elements from address `a`: at most `m` long, none past the end of its target. -/
def cutRun (m : Nat) (endOf : Nat → Nat) : Nat → Nat → Nat → Nat → List (Nat × Nat)
  | 0, _, _, _ => []
  | fuel + 1, a, o, n =>
    if n = 0 then []
    else
      let k := min (min m n) (max 1 (endOf a - a))
      (o, k) :: cutRun m endOf fuel (a + k) (o + k) (n - k)

/-- The end of the die, bank or page that holds an address. -/
def targetEnd (nonet : Bool) (a : Nat) : Nat :=
  if !nonet then (a / dieSize + 1) * dieSize
  else match bankAt a with
    | some b => bankBase b + 4 * bankWords b
    | none => (a / 0o4000 + 1) * 0o4000

/-- The most elements of a packet: 256 octets or 224 nonets, and 192 or 168 when one of them is poisoned (R295, R299). -/
def packetMax (nonet poison : Bool) : Nat := match nonet, poison with
  | false, false => 256
  | false, true => 192
  | true, false => 224
  | true, true => 168

/-- LOST counts as GONE (R297). -/
def goneStatus (st : Nat) : Bool := st == stGone || st == stLost

/-! ### GNTTAB (R303) -/

/-- GNTTAB_APPLY (R303): at a frame start a changed table or enable takes effect. -/
def gntApply (r : Nat) (c : Chip) : Chip :=
  let p := pgDrove r
  let en := c.flag p 2 0
  let want := (List.range 128).filterMap (fun i => let w := c.reg p (16 + i); if en && bitAt w 35 then some (r * 128 + i, w) else none)
  let kept := SMap.drop (fun k => k / 128 == r) c.ring.grants
  let now := SMap.setAll (fun _ => 0) kept want
  if now = c.ring.grants then c
  else (({ c with ring := { c.ring with grants := now } }).setFlag p 3 0 (en && !want.isEmpty)).raise p 0

/-! ### Coprocessor requests (R191, R193, R344) -/

/-- The COP packet of core k: FUNC and the three operands, to the stop of the tile (R191, R344). -/
def copPacket (k : Nat) (r : CopReq) (hdr : BitVec 2) (c : Chip) : Pkt :=
  { init := k, src := initStop k, dst := (servingStop (pgTile r.tile)).getD (1, 9), tag := 0, nonet := true, len := 16, addr := 0,
    data := [r.func.setWidth 36, r.va, r.vb, r.vd].flatMap nonetsOf, mask := [],
    vc := c.flag (pgStop (initStop k).1 (initStop k).2) 17 7, status := 0, lap := 0, hdr := hdr }

/-- RING_COP (R344): the request of core k enters its ring and reaches the tile that it names. -/
def copArrive (k : Nat) (hdr : BitVec 2) (c : Chip) : Chip :=
  match (c.core k).cop with
  | none => c
  | some r =>
    let k := if c.linked then 0 else k
    let q := copPacket k r hdr c
    match freeTag q c with
    | none => c
    | some t =>
      let q := { q with tag := t }
      if !r.sent || r.taken || stopHolds opCop q c then c
      else
        let c := (c.flockCores k).foldl (fun c j =>
          let x := c.core j
          c.setCore j { x with cop := x.cop.map (fun r => { r with taken := true, tag := t }) }) c
        (inject opCop q (some { r with taken := true, tag := t }) true [] c).2

/-! ### Stream output of a tile (R348) -/

/-- Words that one packet of the stream output carries now, if it may leave. -/
def soutReady (c : Chip) (t : Nat) : Option (List Word) :=
  let x := c.tile t
  if c.tileState t ≠ 3 ∨ x.sout.isEmpty = true then none
  else if 56 ≤ x.sout.length ∨ x.flushed = true then some (x.sout.take 56) else none

/-- One packet of the stream output leaves as a WRP to SODEST. -/
def soutSend (t : Nat) (c : Chip) : Chip :=
  match soutReady c t with
  | none => c
  | some ws =>
    let dest := (c.reg (pgTile t) 18).toNat
    match issue (.tile t) opWrp (request (.tile t) true dest (4 * ws.length) (ws.flatMap nonetsOf) [] c) c with
    | (.held, _) => c
    | (_, c) =>
      let x := c.tile t
      let rest := x.sout.drop ws.length
      let c := c.setTile t { x with sout := rest, flushed := x.flushed && !rest.isEmpty }
      c.setReg (pgTile t) 18 (BitVec.ofNat 36 (dest + 4 * ws.length))

/-- Every tile sends what it may. -/
def soutAll (c : Chip) : Chip := (List.range 8).foldl (fun c t => soutSend t c) c

/-- TILE_UNFREEZE (R348): room has appeared, and the tile resumes. -/
def tileUnfreeze (t : Nat) (c : Chip) : Chip :=
  let c := soutSend t c
  if (c.tile t).sout.length < 256 then c.setFlag (pgTile t) 3 10 false else c

end Sys2Proof.Machine
end

