-- ==== Sys2Proof/Machine/Dma.lean ====
section
/-!
DEFINITION. The DMA engines of the host link: descriptors, checks, transfers and their ends (R389 to R393).
-/
namespace Sys2Proof.Machine

/-! ### Descriptor fields (Table 13-3) -/
namespace Dma
def word (x : Dma) (i : Nat) : Word := x.words.getD i 0
def skind (x : Dma) : Nat := fieldOf (x.word 4) 33 3
def dkind (x : Dma) : Nat := fieldOf (x.word 4) 30 3
def pack (x : Dma) : Nat := fieldOf (x.word 4) 28 2
def dfix (x : Dma) : Bool := bitAt (x.word 4) 26
def pkt (x : Dma) : Nat := fieldOf (x.word 4) 23 3
def mark (x : Dma) : Bool := bitAt (x.word 4) 22
def size (x : Dma) : Nat := (x.word 5).toNat
/-- Words of the run of a transfer across the width boundary (R390). -/
def count (x : Dma) : Nat := if x.pack = 0 then x.size / 4 else 2 * x.size / 9
/-- Words of one packet to a WORDS destination. -/
def perPacket (x : Dma) : Nat := match x.pkt with | 0 => 56 | 1 => 32 | 2 => 16 | 3 => 8 | 4 => 4 | _ => 1
/-- SRCA and DSTA. -/
def addrOf (x : Dma) (i kind : Nat) : Nat := (x.word i).toNat + (if kind = 2 then 0 else 2 ^ 36 * fieldOf (x.word (i + 1)) 0 28)
def srca (x : Dma) : Nat := x.addrOf 0 x.skind
def dsta (x : Dma) : Nat := x.addrOf 2 x.dkind
end Dma

/-- A run of words lies in Table 2-6 and outside the secure bank. -/
def wordsRunOk (a n : Nat) : Bool :=
  decide (a + 4 * n ≤ 0o135000000) || (decide (0o200000000 ≤ a) && decide (a + 4 * n ≤ 0o240000000))

/-- High bits of an address of a kind that has none. -/
def dmaHighBad (kind : Nat) (w : Word) : Bool :=
  fieldOf w 28 8 != 0 || (kind == 1 && fieldOf w 2 26 != 0) || (kind == 2 && fieldOf w 0 28 != 0)

/-- The address check of one side (code ADDR). -/
def dmaAddrBad (x : Dma) (kind a : Nat) (dst : Bool) : Bool :=
  match kind with
  | 0 => decide (2 ^ 64 < a + x.size)
  | 1 => decide (4 * dieSize ≤ a) || decide (4 * dieSize < a + x.size)
  | _ =>
    let n := if dst && x.dfix then min x.perPacket x.count else x.count + (if !dst && x.mark then 1 else 0)
    a % 4 != 0 || !wordsRunOk a (max n 1)

/-- The first failing check of Table 13-4 from 0o03, in ascending order of code. -/
def dmaCheck (c : Chip) (h e : Nat) (x : Dma) : Option Nat :=
  let cross := (x.skind == 2) != (x.dkind == 2)
  let f := c.fld (pgPcie h) (17 + 8 * e) 33 2
  let rsvd := decide (3 ≤ x.skind) || decide (3 ≤ x.dkind) || x.pack == 3 || decide (6 ≤ x.pkt) || fieldOf (x.word 4) 0 22 != 0 ||
    x.word 6 != 0 || dmaHighBad x.skind (x.word 1) || dmaHighBad x.dkind (x.word 3) ||
    (x.dkind != 2 && (x.dfix || x.pkt != 0)) || (x.mark && x.skind != 2)
  let combo := if cross then false else x.skind == 2 || (x.skind == 0 && x.dkind == 0) || x.pack != 2
  if rsvd then some 0o03
  else if combo then some 0o04
  else if cross && (if x.pack = 0 then x.size % 4 != 0 else x.size % 9 != 0) then some 0o05
  else if dmaAddrBad x x.skind x.srca false || dmaAddrBad x x.dkind x.dsta true then some 0o06
  else if pfHalf c f != h || !pfBme c f then some 0o07
  else if x.size = 0 then some 0o01
  else none

/-- The entry read through the owner port of the host bank; words 0 to 6 say what to do (R284, R389). -/
def dmaEntry (a : Nat) (c : Chip) : Option (List Word) × Chip :=
  let r := (List.range 8).foldl (fun (x : Option (List Word) × Chip) i =>
    let r := x.2.bankRead 4 (a + 4 * i) 0 allNonets
    (if r.2.1 then none else x.1.map (fun ws => ws ++ [r.1]), r.2.2)) (some [], c)
  (r.1.map (fun ws => ws.take 7), r.2)

def setEstat (h e st : Nat) (c : Chip) : Chip := c.setFld (pgPcie h) (20 + 8 * e) 33 3 st

/-- A transfer of the engine over the ring goes on: its answers when it is over, and the state with the engine's requests. -/
def dmaGather (h e : Nat) (go : Nat → Bool) (reqs : List (Nat × Pkt)) (c : Chip) : Option (List Srv) × Chip :=
  let r := gather (.dma h) go reqs (c.dma h e).xact c
  (if r.1 then some r.2.1.ans else none, r.2.2.setDma h e { r.2.2.dma h e with xact := r.2.1 })

/-- The engine reads its marker word; a marker that is not zero is written to zero, and the run may move (R392). -/
def markerRead (h e : Nat) (c : Chip) : Chip :=
  let x := c.dma h e
  let a := x.srca + 4 * x.count
  let fin (c : Chip) : Chip := c.setDma h e { c.dma h e with xact := Xact.none }
  let gone (c : Chip) : Chip := setEstat h e 1 (c.setDma h e { c.dma h e with xact := Xact.none, code := some 0o11 })
  let rd := (opRd, request (.dma h) true a 4 [] [] c)
  match dmaGather h e (fun st => st == 0) [rd] c with
  | (none, c) => c
  | (some rs, c) =>
    let r := rs.headD (Srv.of stOk)
    if r.status ≠ 0 then gone c
    else if wordOf r.data = 0 then setEstat h e 2 (fin c)
    else match dmaGather h e (fun st => st == 0) [rd, (opWr, request (.dma h) true a 4 (nonetsOf 0) [] c)] c with
      | (none, c) => c
      | (some rs, c) =>
        if rs.any (fun r => r.status != 0) then gone c
        else
          let c := fin c
          setEstat h e 1 (c.setDma h e { c.dma h e with poison := x.poison || !r.mask.isEmpty })

/-- The engine may take a descriptor now. -/
def dmaReady (c : Chip) (h e : Nat) : Bool :=
  let p := pgPcie h
  !c.pwr.off && !pageOff c p && c.flag p (17 + 8 * e) 35 && c.fld p (17 + 8 * e) 0 12 != 0 &&
    c.fld p (18 + 8 * e) 0 12 != c.fld p (19 + 8 * e) 0 12 && (c.dma h e).words.isEmpty && !(c.dma h e).halted &&
    !pfD3 c (c.fld p (17 + 8 * e) 33 2) && !bankClearing c 4

/-- DMA_DESCRIPTOR_START (R389, R391, R392): the entry at HEAD is read and checked. -/
def dmaStart (h e : Nat) (c : Chip) : Chip :=
  if !dmaReady c h e then c
  else
    let p := pgPcie h
    let a := (c.reg p (16 + 8 * e)).toNat + 32 * c.fld p (19 + 8 * e) 0 12
    let fails (code : Nat) (ws : List Word) (c : Chip) : Chip :=
      setEstat h e 1 (c.setDma h e { Dma.idle with words := ws, code := some code })
    let none7 : List Word := List.replicate 7 0
    if !bankOn c 4 then fails 0o11 none7 c
    else
      match dmaEntry a c with
      | (none, c) => fails 0o02 none7 c
      | (some ws, c) =>
        let x := { Dma.idle with words := ws }
        match dmaCheck c h e x with
        | some code => fails code ws c
        | none =>
          let c := setEstat h e 1 (c.setDma h e x)
          if x.mark then markerRead h e (setEstat h e 2 c) else c

/-- DMA_MARKER_POLL (R392). -/
def dmaPoll (h e : Nat) (c : Chip) : Chip :=
  if c.pwr.off || c.fld (pgPcie h) (20 + 8 * e) 33 3 != 2 || (c.dma h e).words.isEmpty then c else markerRead h e c

/-! ### Moving data (R241, R243, R390, R393) -/

/-- An octet with its poison in bit 8. -/
abbrev POct := BitVec 9
/-- A nonet with its poison in bit 9. -/
abbrev PNon := BitVec 10

/-- The requests that read a run over the ring. -/
def dmaReads (h : Nat) (nonet : Bool) (a n : Nat) (c : Chip) : List (Nat × Pkt) :=
  (cutRun (packetMax nonet false) (targetEnd nonet) n a 0 n).map (fun q => (opRd, request (.dma h) nonet (a + q.1) q.2 [] [] c))

/-- The elements that the answers give, with poison in the top bit. -/
def dmaElements (rs : List Srv) : List PNon :=
  rs.flatMap (fun r => r.data.zipIdx.map (fun d => BitVec.ofBool (r.mask.contains d.2) ++ d.1))

/-- Octets to nonets (Table 8-1). -/
def toNonets (low8 : Bool) (os : List POct) : List PNon :=
  if low8 then os.map (fun o => BitVec.ofBool (o.getLsbD 8) ++ (0#1 ++ o.setWidth 8))
  else
    (List.range (8 * os.length / 9)).map (fun i =>
      let bit (s : Nat) : Bool := (os.getD (s / 8) 0).getLsbD (s % 8)
      let v := (List.range 9).foldl (fun n b => if bit (9 * i + b) then n + 2 ^ b else n) 0
      BitVec.ofBool ((os.getD (9 * i / 8) 0).getLsbD 8 || (os.getD ((9 * i + 8) / 8) 0).getLsbD 8) ++ BitVec.ofNat 9 v)

/-- Nonets to octets (Table 8-1). -/
def toOctets (low8 : Bool) (ns : List PNon) : List POct :=
  if low8 then ns.map (fun x => BitVec.ofBool (x.getLsbD 9) ++ x.setWidth 8)
  else
    (List.range (9 * ns.length / 8)).map (fun a =>
      let bit (s : Nat) : Bool := (ns.getD (s / 9) 0).getLsbD (s % 9)
      let v := (List.range 8).foldl (fun n b => if bit (8 * a + b) then n + 2 ^ b else n) 0
      BitVec.ofBool ((ns.getD (8 * a / 9) 0).getLsbD 9 || (ns.getD ((8 * a + 7) / 9) 0).getLsbD 9) ++ BitVec.ofNat 8 v)

/-- The host write TLPs of a run: pieces at element offset `q.1` of the destination, with EP where one is poisoned (R393). -/
def dmaHostWrites (h f : Nat) (x : Dma) (el : List PNon) (ps : List (Nat × Nat)) (c : Chip) : Chip :=
  ps.foldl (fun c q =>
    let part := (el.drop q.1).take q.2
    let bad := part.any (fun d => d.getLsbD 9)
    let c := { c with out := c.out ++ [.tlpWrite f (x.dsta + q.1) (part.map (fun d => d.setWidth 8)) bad] }
    if bad then c.raise (pgPcie h) 4 else c) c

/-- The posted writes of a run, cut again where they carry poison (R299, R304). -/
def dmaWrites (h : Nat) (x : Dma) (el : List PNon) (ps : List (Nat × Nat)) (c : Chip) : List (Nat × Pkt) :=
  let nonet := x.dkind == 2
  ps.flatMap (fun q =>
    let part := (el.drop q.1).take q.2
    let m := packetMax nonet (part.any (fun d => d.getLsbD 9))
    (piecesOf q.2 m).map (fun y =>
      let el := (part.drop y.1).take y.2
      let a := if nonet ∧ x.dfix = true then x.dsta else x.dsta + q.1 + y.1
      (opWrp, request (.dma h) nonet a y.2 (el.map (fun d => d.setWidth 9)) ((List.range el.length).filter (fun i => (el.getD i 0).getLsbD 9)) c)))

/-- One ordering probe for each die, bank or page that the writes reach (R308, R393). -/
def dmaProbes (h : Nat) (ws : List (Nat × Pkt)) (c : Chip) : List (Nat × Pkt) :=
  let ends := (ws.map (fun w => (w.2.nonet, targetEnd w.2.nonet w.2.addr.toNat))).eraseDups
  ends.filterMap (fun t => (ws.find? (fun w => w.2.nonet == t.1 && targetEnd w.2.nonet w.2.addr.toNat == t.2)).map (fun w =>
    (opRd, request (.dma h) w.2.nonet w.2.addr.toNat 0 [] [] c)))

/-- Elements of one packet of the destination: words of PKT, 256 octets of HBM, a host write TLP of the Max Payload Size. -/
def dmaUnit (x : Dma) (mps : Nat) : Nat := match x.dkind with | 2 => 4 * x.perPacket | 1 => 256 | _ => mps

/-- The pieces of the destination. -/
def dmaPieces (x : Dma) (mps n : Nat) : List (Nat × Nat) :=
  if x.dkind = 0 ∨ x.dfix = true then piecesOf n (dmaUnit x mps)
  else cutRun (dmaUnit x mps) (targetEnd (x.dkind == 2)) n x.dsta 0 n

/-- The octets or words that have landed when a descriptor ends early: each holds its old or its new value (R389). -/
def landedPieces (x : Dma) (n : Nat) (landed : List Bool) : List (Nat × Nat) :=
  let w := if x.dkind = 2 then 4 else 1
  (List.range (n / w)).filterMap (fun i => if landed.getD i false then some (w * i, w) else none)

/-- The elements of the source: what the host returned, or what the ring reads give, with the code that a failed request sets. -/
def dmaSource (h e : Nat) (host : List POct) (c : Chip) : Option (List PNon × Option Nat) × Chip :=
  let x := c.dma h e
  match x.held with
  | some ds => (some (ds, x.early), c)
  | none =>
    if x.skind = 0 then (some (host.map (fun o => BitVec.ofBool (o.getLsbD 8) ++ (0#1 ++ o.setWidth 8)), none), c)
    else
      let n := if x.skind = 2 then 4 * x.count else x.size
      match dmaGather h e (fun st => st == 0) (dmaReads h (x.skind == 2) x.srca n c) c with
      | (none, c) => (none, c)
      | (some rs, c) =>
        (some (dmaElements rs, if rs.any (fun r => r.status != 0) then some 0o11 else none), c.setDma h e { c.dma h e with xact := Xact.none })

/-- The transfer of the descriptor under way. `host` is what the host returned, `early` the code of an end before the last
element; the answer is nothing while requests of it are under way. -/
def dmaMove (h e : Nat) (host : List POct) (early : Option Nat) (landed : List Bool) (c : Chip) : Option Nat × Chip :=
  let x := c.dma h e
  let p := pgPcie h
  let f := c.fld p (17 + 8 * e) 33 2
  match dmaSource h e host c with
  | (none, c) => (none, c)
  | (some (ds, failed), c) =>
    let poison := ds.any (fun d => d.getLsbD 9)
    let oct (d : PNon) : POct := BitVec.ofBool (d.getLsbD 9) ++ d.setWidth 8
    let wide (o : POct) : PNon := BitVec.ofBool (o.getLsbD 8) ++ (0#1 ++ o.setWidth 8)
    let el : List PNon :=
      if x.skind = 2 then (toOctets (x.pack == 0) ds).map wide
      else if x.dkind = 2 then toNonets (x.pack == 0) (ds.map oct) else ds
    let drop8 := x.skind == 2 && x.pack == 0 && ds.any (fun d => d.getLsbD 8)
    let early := early.orElse (fun _ => failed)
    let ps := if early.isSome then landedPieces x el.length landed else dmaPieces x (maxPayload c f) el.length
    let moved := if early.isSome then (ps.foldl (fun s q => s + q.2) 0) * (if x.dkind = 2 then x.size else 1) / (if x.dkind = 2 then max 1 (4 * x.count) else 1)
      else x.size
    let fin (code : Nat) (c : Chip) : Option Nat × Chip :=
      let c := if poison && x.skind == 0 then c.raise p 4 else c
      let y := c.dma h e
      let c := c.setDma h e { y with poison := x.poison || poison, drop8 := drop8, xact := Xact.none, held := none, early := none }
      (some code, c.count p (21 + 8 * e) moved)
    if x.dkind = 0 then fin (early.getD 0) (dmaHostWrites h f x el ps c)
    else
      let ws := dmaWrites h x el ps c
      let c := c.setDma h e { c.dma h e with held := some ds, early := early }
      match dmaGather h e (fun _ => true) (ws ++ dmaProbes h ws c) c with
      | (none, c) => (none, c)
      | (some rs, c) => fin (early.getD (if rs.any (fun r => r.status != 0) then 0o11 else 0)) c

/-- A descriptor ends before its last element, with a code (R388, R389, R391). -/
def dmaEarly (h e code : Nat) (host : List POct) (landed : List Bool) (c : Chip) : Chip :=
  let x := c.dma h e
  if x.words.isEmpty then c
  else if x.code.isSome || c.fld (pgPcie h) (20 + 8 * e) 33 3 == 2 || x.xact != Xact.none then dmaEnd h e code (c.abandon x.xact)
  else match dmaMove h e host (some code) landed c with
    | (none, c) => dmaEnd h e code (c.abandon (c.dma h e).xact)
    | (some code, c) => dmaEnd h e code c

/-- DMA_DESCRIPTOR_COMPLETE (R393): the transfer, and its end. `hostErr` tells that a host read completed with UR or CA. -/
def dmaComplete (h e : Nat) (host : List POct) (hostErr : Bool) (landed : List Bool) (c : Chip) : Chip :=
  let x := c.dma h e
  if c.pwr.off || x.words.isEmpty || c.fld (pgPcie h) (20 + 8 * e) 33 3 != 1 || bankClearing c 4 then c
  else match x.code with
    | some code => dmaEnd h e code c
    | none =>
      let err := x.skind == 0 && hostErr
      if x.skind = 0 ∧ err = false ∧ host.length ≠ x.size then c
      else match dmaMove h e (host.take x.size) (if err then some 0o10 else none) landed c with
        | (none, c) => c
        | (some code, c) => dmaEnd h e code c

/-- DMA_HOST_TIMEOUT (R391). -/
def dmaHostTimeout (h e : Nat) (host : List POct) (landed : List Bool) (c : Chip) : Chip :=
  let x := c.dma h e
  if c.pwr.off || x.words.isEmpty || x.skind != 0 || x.code.isSome then c
  else dmaEarly h e 0o10 (host.take x.size) landed (aerSet (c.fld (pgPcie h) (17 + 8 * e) 33 2) 14 c)

/-- A write of EN := 0 (R389): a running descriptor ends with STOPPED, with what had landed. -/
def dmaDisable (h e : Nat) (who : Who) (host : List POct) (landed : List Bool) (c : Chip) : Chip :=
  let p := pgPcie h
  let s := 17 + 8 * e
  let taken := !c.pwr.off && slotStatus p s c == 0 && !lockedSlot c p s && slotOpen who p s
  let c := if taken && c.flag p s 35 && !(c.dma h e).words.isEmpty then dmaEarly h e 0o14 (host.take (c.dma h e).size) landed c else c
  pageWrite who p s (withField (c.reg p s) 35 1 0) c

/-- The engines of either half whose descriptors carry FUNC = f end them with a code, and their queues are re-initialised (R388, R389). -/
def dmaFlr (f code : Nat) (landed : List Bool) (c : Chip) : Chip :=
  [0, 1].foldl (fun c h => (List.range 4).foldl (fun c e =>
    if c.fld (pgPcie h) (17 + 8 * e) 33 2 = f then
      let c := dmaEarly h e code [] landed c
      let c := c.setDma h e { c.dma h e with halted := false }
      (dmaRewind h e (c.setFlag (pgPcie h) (17 + 8 * e) 35 false)) |> fun c =>
        c.setFld (pgPcie h) (20 + 8 * e) 33 3 0
    else c) c) c

end Sys2Proof.Machine
end

