-- ==== Sys2Proof/Machine/ScalarCode.lean ====
section
/-!
DEFINITION. The instruction words of the core: fields, operations and legal encodings (R161, R162, R167, R168, R170 to R176,
R180 to R185, R191).
-/
namespace Sys2Proof.Machine

/-- The operation of a word: its group and the code that its function table gives it (Tables 6-4 to 6-12, 4-3). -/
inductive Tag where
  | alu (f : Nat) | shift (f : Nat) | muldiv (f : Nat) | fpu (f : Nat) | fcvt (f : Nat) | atom (f : Nat) | sys (f : Nat)
  | imm (op : Nat) | load (op : Nat) | store (op : Nat) | branch (op : Nat)
  | loop | jalr | j | jal | cop | arr (o : AOp)
deriving DecidableEq, Repr

/-! ### Fields (Table 6-3) -/

def wOp (w : Word) : Nat := fieldOf w 29 7
def wRd (w : Word) : BitVec 5 := w.extractLsb' 24 5
def wRa (w : Word) : BitVec 5 := w.extractLsb' 19 5
def wRb (w : Word) : BitVec 5 := w.extractLsb' 14 5
def wFunc (w : Word) : BitVec 14 := w.setWidth 14
def wImm (w : Word) : BitVec 19 := w.setWidth 19
def wTgt (w : Word) : BitVec 29 := w.setWidth 29
def sextImm (w : Word) : Word := (wImm w).signExtend 36
def zextImm (w : Word) : Word := (wImm w).setWidth 36
/-- Bits `lo + n − 1` to `lo` of FUNC. -/
def fn (w : Word) (lo n : Nat) : Nat := fieldOf w lo n % 2 ^ (14 - lo)

def evenReg (r : BitVec 5) : Bool := !r.getLsbD 0

/-- The operation that a word's opcode and function select, if the tables assign one (Table 6-4). -/
def tagOf (w : Word) : Option Tag :=
  let op := wOp w
  if op = 0o001 then (if fn w 0 5 ≤ 0o20 then some (.alu (fn w 0 5)) else none)
  else if op = 0o002 then (if fn w 0 3 ≤ 4 then some (.shift (fn w 0 3)) else none)
  else if op = 0o003 then some (.muldiv (fn w 0 3))
  else if op = 0o004 then (if fn w 6 4 ≤ 7 then some (.fpu (fn w 6 4)) else none)
  else if op = 0o005 then (if fn w 8 3 ≤ 5 then some (.fcvt (fn w 8 3)) else none)
  else if op = 0o006 then (if fn w 0 3 ≤ 3 then some (.atom (fn w 0 3)) else none)
  else if op = 0o007 then (if fn w 0 6 ≤ 0o11 then some (.sys (fn w 0 6)) else none)
  else if 0o020 ≤ op ∧ op ≤ 0o026 then some (.imm op)
  else if 0o030 ≤ op ∧ op ≤ 0o035 then some (.load op)
  else if 0o040 ≤ op ∧ op ≤ 0o043 then some (.store op)
  else if 0o050 ≤ op ∧ op ≤ 0o055 then some (.branch op)
  else if op = 0o056 then some .loop
  else if op = 0o057 then some .jalr
  else if op = 0o060 then some .j
  else if op = 0o061 then some .jal
  else if 0o140 ≤ op ∧ op ≤ 0o157 then (AOp.ofCode (headOp w)).map .arr
  else if 0o160 ≤ op then some .cop
  else none

/-- Special registers that MFS reads, and that MTS writes (Table 6-1, R165). -/
def mfsIndex (i : Nat) : Bool := decide (i ≤ 0o26)
def mtsIndex (i : Nat) : Bool := (decide (1 ≤ i) && decide (i ≤ 7)) || (decide (0o13 ≤ i) && decide (i ≤ 0o15)) || i == 0o24

/-- The word of operation `t` has no reserved field, no unused field that is not zero and no odd pair (R162, R165, R168). -/
def scalarLegal (t : Tag) (w : Word) : Bool :=
  let rd := wRd w
  let ra := wRa w
  let rb := wRb w
  match t with
  | .alu f =>
    let d := fn w 5 1 == 1
    let cmp := f == 0o13 || f == 0o14
    fn w 6 8 == 0 && (f != 4 || rb == 0) && (!d || (evenReg ra && evenReg rb && (cmp || evenReg rd)))
  | .shift _ =>
    let d := fn w 3 1 == 1
    (if fn w 4 1 = 1 then rb == 0 else fn w 5 9 == 0) && (!d || (evenReg ra && evenReg rd))
  | .muldiv f =>
    fn w 3 11 == 0 && (f < 2 || evenReg rd) && (f < 6 || (rd.toNat % 4 == 0 && evenReg ra && evenReg rb))
  | .fpu f =>
    let wide := fn w 10 1 == 1
    let rm := fn w 11 3
    decide (rm ≤ 4) && fn w 0 3 == 0 && (if f = 5 then fn w 3 3 != 7 else fn w 3 3 == 0) && (f < 5 || rm == 0) &&
    (f < 6 || rb == 0) && (!wide || (evenReg ra && evenReg rb && (f == 5 || evenReg rd)))
  | .fcvt f =>
    let rm := fn w 11 3
    let d := fn w 7 1 == 1
    let tz := fn w 5 1 == 1
    rb == 0 && decide (rm ≤ 4) && fn w 0 5 == 0 && (!tz || ((f == 2 || f == 3) && rm == 0)) &&
    (f < 4 || (!d && fn w 6 1 == 0)) && (f != 4 || rm == 0) &&
    (match f with
     | 0 => !d || evenReg ra
     | 1 => evenReg rd && (!d || evenReg ra)
     | 2 => !d || evenReg rd
     | 3 => evenReg ra && (!d || evenReg rd)
     | 4 => evenReg rd
     | _ => evenReg ra)
  | .atom f => fn w 3 11 == 0 && (f != 0 || rb == 0)
  | .sys f =>
    (match f with
     | 1 => ra == 0 && rb == 0 && mfsIndex (fn w 6 8)
     | 2 => rd == 0 && rb == 0 && mtsIndex (fn w 6 8)
     | 3 => rd == 0 && ra == 0 && rb == 0
     | _ => rd == 0 && ra == 0 && rb == 0 && fn w 6 8 == 0)
  | .imm op => op != 0o026 || ra == 0
  | .load op => op != 0o035 || evenReg rd
  | .store op => op != 0o043 || evenReg rd
  | .loop => rd == 0
  | _ => true

end Sys2Proof.Machine
end

