-- ==== Sys2Proof/Machine/Scalar.lean ====
section
/-!
DEFINITION. The scalar core: fetch, execution of one instruction, traps and boundaries (R161 to R200, R500, R504 to R507, R537).
-/
namespace Sys2Proof.Machine

/-! ### Arithmetic (R170 to R175) -/

/-- An ALU function at width `w`: its result and, for the functions that write PSW, C and V (Table 6-5). -/
def aluRes (f w a b : Nat) (cin : Bool) : Nat × Option (Bool × Bool) :=
  let flags (r : IntRes) : Nat × Option (Bool × Bool) := (r.res, some (r.c, r.v))
  let pick (p : Prop) [Decidable p] : Nat × Option (Bool × Bool) := (if p then a else b, none)
  match f with
  | 0 => flags (addWith w a b false)
  | 1 => flags (addWith w a (notW w b) true)
  | 2 => flags (addWith w a b cin)
  | 3 => flags (addWith w a (notW w b) cin)
  | 4 => flags (addWith w 0 (notW w a) true)
  | 5 => (a &&& b, none)
  | 6 => (a ||| b, none)
  | 7 => (a ^^^ b, none)
  | 8 => (a &&& notW w b, none)
  | 9 => (a ||| notW w b, none)
  | 10 => (notW w (a ^^^ b), none)
  | 11 => (if signedOf w a < signedOf w b then 1 else 0, none)
  | 12 => (if a < b then 1 else 0, none)
  | 13 => pick (signedOf w a < signedOf w b)
  | 14 => pick (signedOf w b < signedOf w a)
  | 15 => pick (a < b)
  | _ => pick (b < a)

/-- A shift (Table 6-6). -/
def shiftRes (f w a s : Nat) : Nat :=
  match f with
  | 0 => shlW w a s
  | 1 => shrW false w a s
  | 2 => shrW (a.testBit (w - 1)) w a s
  | 3 => rolW w a s
  | _ => rorW w a s

/-- A floating-point operation on encodings (Table 6-8). -/
def fpuRes (f : Fmt) (op mode rel a b d : Nat) : FRes :=
  match op with
  | 0 => fAdd f mode a b false
  | 1 => fAdd f mode a b true
  | 2 => fMul f mode a b
  | 3 => fDiv f mode a b
  | 4 => fFma f mode a b d
  | 5 => let r := fCmp f rel a b; ⟨r.1.toNat, r.2⟩
  | 6 => ⟨(a % 2 ^ f.width) ^^^ f.signBit, {}⟩
  | _ => ⟨a % f.signBit, {}⟩

/-- A conversion (R175, Table 5-5). -/
def fcvtRes (op mode w : Nat) (unsigned tz : Bool) (a : Nat) : FRes :=
  let mode := if tz then 1 else mode
  match op with
  | 0 => fromInt fmt32 mode (readInt (!unsigned) w a)
  | 1 => fromInt fmt64 mode (readInt (!unsigned) w a)
  | 2 => toInt fmt32 mode w (!unsigned) (a % 2 ^ 32)
  | 3 => toInt fmt64 mode w (!unsigned) (a % 2 ^ 64)
  | 4 => widen (a % 2 ^ 32)
  | _ => narrow64 mode (a % 2 ^ 64)

/-! ### What one instruction does -/

/-- How an instruction ends. -/
inductive SRes where
  /-- it completes, and the next word follows -/
  | done (c : Chip)
  /-- a taken branch or jump -/
  | jump (target : Word) (c : Chip)
  /-- a precise trap of Table 6-13; the state holds what the attempt logged -/
  | trap (code : Nat) (tval : Word) (c : Chip)
  /-- it waits; nothing has changed -/
  | wait
  /-- PC stays at the instruction: a coprocessor request is out, WAIT waits, or a comparator halts the core -/
  | stay (c : Chip)
  /-- BRK halts the core after it -/
  | brk (c : Chip)

/-- A value of a word or of a pair. -/
def val (c : Chip) (k : Nat) (d : Bool) (r : BitVec 5) : Nat := if d then (c.pair k r).toNat else (c.w k r).toNat
def putVal (k : Nat) (d : Bool) (r : BitVec 5) (v : Nat) (c : Chip) : Chip :=
  if d then c.setPair k r (BitVec.ofNat 72 v) else c.setW k r (BitVec.ofNat 36 v)

def exAlu (k f : Nat) (w : Word) (c : Chip) : SRes :=
  let d := fn w 5 1 == 1
  let r := aluRes f (if d then 72 else 36) (val c k d (wRa w)) (val c k d (wRb w)) (c.psw k pswC)
  let c' := putVal k (d && f != 0o13 && f != 0o14) (wRd w) r.1 c
  .done (match r.2 with | some x => c'.setCV k x.1 x.2 | none => c')

def exShift (k f : Nat) (w : Word) (c : Chip) : SRes :=
  let d := fn w 3 1 == 1
  let s := if fn w 4 1 = 1 then fn w 5 9 else (c.w k (wRb w)).toNat
  .done (putVal k d (wRd w) (shiftRes f (if d then 72 else 36) (val c k d (wRa w)) s) c)

def exMuldiv (k f : Nat) (w : Word) (c : Chip) : SRes :=
  let d := decide (6 ≤ f)
  let a := val c k d (wRa w)
  let b := val c k d (wRb w)
  let rd := wRd w
  let signed := f % 2 == 0
  match f with
  | 0 | 1 => let r := mulLow signed 36 a b; .done ((putVal k false rd r.res c).setCV k false r.v)
  | 2 | 3 => .done ((putVal k true rd (mulFull signed 36 a b) c).setCV k false false)
  | _ =>
    if b = 0 then .trap 0o010 0 c
    else
      let r := divRem signed (if d then 72 else 36) a b
      let c := putVal k d (rd + (if d then 2 else 1)) r.2.1 (putVal k d rd r.1 c)
      .done (c.setCV k false r.2.2)

/-- The rounding mode of R149. -/
def scalarRm (c : Chip) (k rm : Nat) : Nat := if rm = 4 then fieldOf (c.sr k srFPSW) 5 2 else rm

def exFpu (k f : Nat) (w : Word) (c : Chip) : SRes :=
  let d := fn w 10 1 == 1
  let r := fpuRes (if d then fmt64 else fmt32) f (scalarRm c k (fn w 11 3)) (fn w 3 3)
    (val c k d (wRa w) % 2 ^ (if d then 64 else 32)) (val c k d (wRb w) % 2 ^ (if d then 64 else 32))
    (val c k d (wRd w) % 2 ^ (if d then 64 else 32))
  .done ((putVal k (d && f != 5) (wRd w) r.bits c).orFpsw k r.fl)

def exFcvt (k f : Nat) (w : Word) (c : Chip) : SRes :=
  let d := fn w 7 1 == 1
  let src := match f with | 0 | 1 => d | 3 | 5 => true | _ => false
  let dst := match f with | 2 | 3 => d | 1 | 4 => true | _ => false
  let r := fcvtRes f (scalarRm c k (fn w 11 3)) (if d then 72 else 36) (fn w 6 1 == 1) (fn w 5 1 == 1) (val c k src (wRa w))
  .done ((putVal k dst (wRd w) r.bits c).orFpsw k r.fl)

def exImm (k op : Nat) (w : Word) (c : Chip) : SRes :=
  let a := c.w k (wRa w)
  let rd := wRd w
  match op with
  | 0o020 =>
    let r := addWith 36 a.toNat (sextImm w).toNat false
    .done ((c.setW k rd (BitVec.ofNat 36 r.res)).setCV k r.c r.v)
  | 0o021 => .done (c.setW k rd (a &&& zextImm w))
  | 0o022 => .done (c.setW k rd (a ||| zextImm w))
  | 0o023 => .done (c.setW k rd (a ^^^ zextImm w))
  | 0o024 => .done (c.setW k rd (ofBool (a.slt (sextImm w))))
  | 0o025 => .done (c.setW k rd (ofBool (a.ult (zextImm w))))
  | _ => .done (c.setW k rd (zextImm w <<< 17))

/-! ### Comparators (R504, R505) -/

/-- The comparators of core k that an access matches; in LINKED those of BW0 count (R497). `kinds` holds the KINDs that apply. -/
def cmpMatch (c : Chip) (k : Nat) (kinds : List Nat) (lo n : Nat) : List Nat :=
  let k := if c.linked then 0 else k
  let ctl (j : Nat) : Word := c.reg pgGander (32 + 16 * k + 2 * j)
  let adr (j : Nat) : Nat := (c.reg pgGander (33 + 16 * k + 2 * j)).toNat
  (List.range 8).filter (fun j =>
    let top := if j % 2 = 0 ∧ bitAt (ctl j) 32 = true then adr (j + 1) else adr j
    bitAt (ctl j) 35 && kinds.contains (fieldOf (ctl j) 33 2) && !(j % 2 == 1 && bitAt (ctl (j - 1)) 32) &&
    decide (adr j < lo + n) && decide (lo ≤ top))

/-- The actions of the comparators that match: 1 halt, 2 BRK trap, 0 neither. -/
def cmpAct (k : Nat) (ms : List Nat) (c : Chip) : Nat × Chip :=
  let act (j : Nat) : Nat := fieldOf (c.reg pgGander (32 + 16 * (if c.linked then 0 else k) + 2 * j)) 30 2
  let c' := if ms.any (fun j => act j == 1) then c.raise pgGander 4 else c
  if ms.any (fun j => act j == 0) then (1, askHalt k (ms.headD 0) 2 c')
  else if ms.any (fun j => act j == 2) then (2, c') else (0, c')

/-- A data access goes on when no comparator stops it. -/
def dataCmp (k : Nat) (on : Bool) (kinds : List Nat) (a n : Nat) (c : Chip) (f : Chip → SRes) : SRes :=
  if !on then f c
  else
    let r := cmpAct k (cmpMatch c k kinds a n) c
    if r.1 = 1 then .stay r.2 else if r.1 = 2 then .trap 0o016 0 r.2 else f r.2

/-! ### Loads, stores and atomics (R176 to R181, R284) -/

/-- What core k waits for, in the instruction whose word is w. -/
def Chip.setXact (c : Chip) (k : Nat) (x : Xact) (w : Word) : Chip :=
  if (c.core k).xact = x then c else c.setCore k { c.core k with xact := x, ir := w }

/-- The accesses of one instruction of core k, whose word is w, one after the other (R178, R307): the answers up to the first that is not OK,
or the state in which the instruction waits for the next one. -/
def coreAccess (k : Nat) (w : Word) (reqs : List (Nat × Pkt)) (c : Chip) : Option (List Srv) × Chip :=
  let r := gather (.core k) (fun st => st == 0) reqs (c.core k).xact c
  if r.1 then (some r.2.1.ans, r.2.2.setXact k Xact.none w) else (none, r.2.2.setXact k r.2.1 w)

/-- The requests of a load, a store and an atomic of core k. -/
def coreRd (k a n : Nat) (c : Chip) : Nat × Pkt := (opRd, request (.core k) true a n [] [] c)
def coreWr (k a n : Nat) (v : Word) (c : Chip) : Nat × Pkt := (opWr, request (.core k) true a n ((nonetsOf v).take n) [] c)
def coreAt (k opc a : Nat) (data : List (BitVec 9)) (c : Chip) : Nat × Pkt := (opc, request (.core k) true a 4 data [] c)

/-- Whether every answer is OK, and whether one of them has a failing nonet. -/
def allOk (rs : List Srv) : Bool := rs.all (fun r => r.status == 0)
def anyBad (rs : List Srv) : Bool := rs.any (fun r => !r.mask.isEmpty)
def ansWord (rs : List Srv) (i : Nat) : Word := wordOf (rs.getD i (Srv.of 0)).data

/-- A data machine check of class BANK (R284, Table 16-3). -/
def bankCheck (k : Nat) (c : Chip) : Chip := machineCheck k 7 (if c.linked then 0 else k) 15 0 0o040 0 c

/-- Widths of Table 6-10. -/
def memWidth (op : Nat) : Nat := match op with | 0o030 | 0o031 | 0o040 => 1 | 0o032 | 0o033 | 0o041 => 2 | 0o034 | 0o042 => 4 | _ => 8

/-- The value that a load gives (Table 6-10). -/
def loadVal (op : Nat) (v : Word) : Word :=
  match op with
  | 0o030 => (v.setWidth 9).setWidth 36
  | 0o031 => (v.setWidth 9).signExtend 36
  | 0o032 => (v.setWidth 18).setWidth 36
  | 0o033 => (v.setWidth 18).signExtend 36
  | _ => v

/-- An address of the register pages (R62). -/
def inPages (a : Nat) : Bool := decide (0o200000000 ≤ a) && decide (a < 0o240000000)

/-- Loads. A double access does not reach a register page (R49, R177). -/
def exLoad (k op : Nat) (on : Bool) (w : Word) (c : Chip) : SRes :=
  let a := c.w k (wRa w) + sextImm w
  let n := memWidth op
  if a.toNat % n ≠ 0 then .trap 0o005 a c
  else dataCmp k on [1, 3] a.toNat n c (fun c =>
    if n = 8 ∧ inPages a.toNat = true then .trap 0o003 a c
    else
      match coreAccess k w (if n < 8 then [coreRd k a.toNat n c] else [coreRd k a.toNat 4 c, coreRd k (a.toNat + 4) 4 c]) c with
      | (none, c) => .stay c
      | (some rs, c) =>
        if !allOk rs then .trap 0o003 a c
        else if anyBad rs then .done (bankCheck k c)
        else if n < 8 then .done (c.setW k (wRd w) (loadVal op (ansWord rs 0)))
        else .done (c.setPair k (wRd w) (ansWord rs 1 ++ ansWord rs 0)))

/-- Stores. A double access does not reach a register page (R49, R177). -/
def exStore (k op : Nat) (on : Bool) (w : Word) (c : Chip) : SRes :=
  let a := c.w k (wRa w) + sextImm w
  let n := memWidth op
  let v := c.w k (wRd w)
  if a.toNat % n ≠ 0 then .trap 0o006 a c
  else dataCmp k on [2, 3] a.toNat n c (fun c =>
    if n = 8 ∧ inPages a.toNat = true then .trap 0o004 a c
    else
      match coreAccess k w (if n < 8 then [coreWr k a.toNat n v c]
          else [coreWr k a.toNat 4 v c, coreWr k (a.toNat + 4) 4 (c.w k (wRd w + 1)) c]) c with
      | (none, c) => .stay c
      | (some rs, c) => if !allOk rs then .trap 0o004 a c else .done c)

/-- LDR, STC, AADD, ASWAP. -/
def exAtom (k f : Nat) (on : Bool) (w : Word) (c : Chip) : SRes :=
  let a := c.w k (wRa w)
  let kinds := match f with | 0 => [1, 3] | 1 => [2, 3] | _ => [1, 2, 3]
  if a.toNat % 4 ≠ 0 then .trap (if f = 0 then 0o005 else 0o006) a c
  else dataCmp k on kinds a.toNat 4 c (fun c =>
    let opc := match f with | 0 => opLdr | 1 => opStc | 2 => opAadd | _ => opAswap
    match coreAccess k w [coreAt k opc a.toNat (if f = 0 then [] else nonetsOf (c.w k (wRb w))) c] c with
    | (none, c) => .stay c
    | (some rs, c) =>
      if !allOk rs then .trap (if f = 0 then 0o003 else 0o004) a c
      else if anyBad rs then .done (bankCheck k c)
      else .done (c.setW k (wRd w) (ansWord rs 0)))

/-! ### Branches, jumps and loops (R182, R183) -/

def exBranch (k op : Nat) (w : Word) (c : Chip) : SRes :=
  let x := c.w k (wRd w)
  let y := c.w k (wRa w)
  let holds := match op with
    | 0o050 => x == y
    | 0o051 => x != y
    | 0o052 => x.slt y
    | 0o053 => !x.slt y
    | 0o054 => x.ult y
    | _ => !x.ult y
  if holds then .jump (c.pc k + 4 * sextImm w) c else .done c

def exJalr (k : Nat) (w : Word) (c : Chip) : SRes :=
  let t := c.w k (wRa w) + sextImm w
  if t.toNat % 4 ≠ 0 then .trap 0o007 t c else .jump t (c.setW k (wRd w) (c.pc k + 4))

def exLoop (k : Nat) (w : Word) (c : Chip) : SRes :=
  let n := c.w k (wRa w)
  let len := zextImm w
  let pc := c.pc k
  if c.psw k pswLA then .trap 0o001 w c
  else if n = 0 ∨ len = 0 then .jump (pc + 4 + 4 * len) c
  else .jump (pc + 4) ((((c.setSr k srLCNT n).setSr k srLBEG (pc + 4)).setSr k srLEND (pc + 4 * len)).setPsw k pswLA true)

/-! ### System instructions (R165, R184, R185, R507) -/

/-- A later update of special register `i` is outstanding (R132). -/
def redPending (c : Chip) (k i : Nat) : Bool :=
  let m := c.mseq k
  let upd (r : Red) : Bool :=
    if i = srBELL then r.rupd != 0 else if i = srCOUNT then r.rupd == 2 else if i = srFIRST then r.rupd == 3 else false
  (c.core k).queue.any (fun it => updatesRed it i) || (m.active && updatesRed m.item i) || m.reds.any upd
/-- An array floating-point instruction has not completed (R148). -/
def fpswPending (c : Chip) (k : Nat) : Bool :=
  (c.core k).queue.any isFloatItem || ((c.mseq k).active && isFloatItem (c.mseq k).item)

def Chip.termTx (c : Chip) (k : Nat) : Option Word := SMap.get (fun _ => none) c.dbg.tx k
def Chip.termRx (c : Chip) (k : Nat) : Option Word := SMap.get (fun _ => none) c.dbg.rx k
def Chip.setTermTx (c : Chip) (k : Nat) (v : Option Word) : Chip :=
  { c with dbg := { c.dbg with tx := SMap.set (fun _ => none) c.dbg.tx k v } }
def Chip.setTermRx (c : Chip) (k : Nat) (v : Option Word) : Chip :=
  { c with dbg := { c.dbg with rx := SMap.set (fun _ => none) c.dbg.rx k v } }
def termSt (c : Chip) (k : Nat) : Word := BitVec.ofNat 36 (2 * (c.termRx k).isSome.toNat + (c.termTx k).isSome.toNat)

/-- The value of a special register as it stands, without waits and side effects (Table 6-1). -/
def srValue (c : Chip) (k i : Nat) : Word :=
  match i with
  | 0o16 => ipend c k
  | 0o20 => BitVec.ofNat 36 (c.core k).queue.length
  | 0o21 => BitVec.ofNat 36 k
  | 0o22 => c.tally.setWidth 36
  | 0o23 => (c.core k).tallyCap.setWidth 36
  | 0o24 => 0
  | 0o25 => (c.termRx k).getD 0
  | 0o26 => termSt c k
  | _ => c.sr k i

def exMfs (k : Nat) (w : Word) (c : Chip) : SRes :=
  let i := fn w 6 8
  let put (c : Chip) : SRes := .done (c.setW k (wRd w) (srValue c k i))
  if i = srBELL ∨ i = srCOUNT ∨ i = srFIRST then (if redPending c k i then .wait else put c)
  else if i = srFPSW then (if fpswPending c k then .wait else put c)
  else if i = 0o22 then put (c.setCore k { c.core k with tallyCap := (c.tally >>> 36).setWidth 28 })
  else if i = 0o25 then
    match c.termRx k with
    | none => .wait
    | some v => .done ((c.setTermRx k none).setW k (wRd w) v)
  else put c

/-- The write of a special register: the bits that it holds (Table 6-1, Table 6-2, R165). -/
def srWrite (k i : Nat) (v : Word) (c : Chip) : Chip :=
  match i with
  | 1 | 4 => c.setSr k i (v &&& 0x3ff)
  | 2 => c.setSr k i (v &&& 0x7f)
  | 3 => c.setSr k i (v &&& ~~~(3 : Word))
  | 5 => c.setSr k i (v &&& 0x8000001ff)
  | 7 => c.setSr k i (v &&& ~~~(0x1ff : Word))
  | _ => c.setSr k i v

def exMts (k : Nat) (w : Word) (c : Chip) : SRes :=
  let i := fn w 6 8
  let v := c.w k (wRa w)
  if i = srPSW ∧ 16 < fieldOf v 4 5 then .trap 0o001 w c
  else if i = srFPSW ∧ fpswPending c k = true then .wait
  else if i = 0o24 then
    (if (c.termTx k).isSome then .wait else .done ((c.setTermTx k (some v)).raise pgGander 3))
  else .done (srWrite k i v c)

/-- WAIT (R185): with a level at or above IPL it ends, and with IE = 1 leaves the interrupt to be taken at it. -/
def exWait (k : Nat) (c : Chip) : SRes :=
  if (topLevel c k).isSome && !c.psw k pswIE then .done (c.setFlag (pgBw k) 3 2 false) else .stay (c.setFlag (pgBw k) 3 2 true)

/-- AFENCE: the queue is empty and every issued array instruction has completed. -/
def arrayDrained (c : Chip) (k : Nat) : Bool := (c.core k).queue.isEmpty && !(c.mseq k).active

def exSys (k f : Nat) (w : Word) (c : Chip) : SRes :=
  match f with
  | 1 => exMfs k w c
  | 2 => exMts k w c
  | 3 => .trap 0o015 (BitVec.ofNat 36 (fn w 6 8)) c
  | 4 => .jump (c.sr k srTPC) (returnFromTrap k c)
  | 5 => exWait k c
  | 8 => if arrayDrained c k then .done c else .wait
  | 9 => if gaBit c k 0 then .brk c else .trap 0o016 0 c
  | _ => .done c

/-! ### Coprocessor and array instructions (R186, R191, R192) -/

def exCop (k : Nat) (w : Word) (c : Chip) : SRes :=
  let bw := pgBw (if c.linked then 0 else k)
  let t := c.fld bw 17 0 3
  if !c.flag bw 17 3 || tileOff c t || decide (c.tileState t < 2) then .trap 0o017 w c
  else
    .stay (c.setCore k { c.core k with
      cop := some { num := BitVec.ofNat 4 (wOp w), func := wFunc w, rd := wRd w, va := c.w k (wRa w), vb := c.w k (wRb w),
                    vd := c.w k (wRd w), tile := t, sent := !c.linked, taken := false, tag := 0, vc := false } })

/-- Issue of an array instruction (R101, R103, R186, R187, R189). -/
def exArr (k : Nat) (o : AOp) (head tail : Word) (c : Chip) : SRes :=
  let x := fieldsOf head tail
  let s := captureS c k o x
  let depth := (c.sr k srMSDEPTH).toNat
  if !issueLegal o x s || (c.psw k pswLA && c.sr k srLEND == c.pc k) then .trap 0o001 head c
  else if o = .mpush ∧ x.n = 1 ∧ 16 ≤ depth then .trap 0o012 0 c
  else if (o = .mpop ∨ o = .melse) ∧ x.n = 1 ∧ depth = 0 then .trap 0o013 0 c
  else if c.istop k && !c.behind k then .trap 0o014 head c
  else if 64 ≤ (c.core k).queue.length then .wait
  else
    let it : QItem := { head := head, tail := tail, sop := s, rm := BitVec.ofNat 2 (fieldOf (c.sr k srFPSW) 5 2), pc := c.pc k }
    let c := c.setCore k { c.core k with queue := (c.core k).queue ++ [it] }
    .done (c.setSr k srMSDEPTH (BitVec.ofNat 36 (depthAfter it depth)))

/-- The operation of a word, with `tail` the word that follows it; `on` arms the comparators. -/
def execOp (k : Nat) (t : Tag) (on : Bool) (w tail : Word) (c : Chip) : SRes :=
  match t with
  | .alu f => exAlu k f w c
  | .shift f => exShift k f w c
  | .muldiv f => exMuldiv k f w c
  | .fpu f => exFpu k f w c
  | .fcvt f => exFcvt k f w c
  | .atom f => exAtom k f on w c
  | .sys f => exSys k f w c
  | .imm op => exImm k op w c
  | .load op => exLoad k op on w c
  | .store op => exStore k op on w c
  | .branch op => exBranch k op w c
  | .loop => exLoop k w c
  | .jalr => exJalr k w c
  | .j => .jump (4 * (wTgt w).setWidth 36) c
  | .jal => .jump (4 * (wTgt w).setWidth 36) (c.setW k 31 (c.pc k + 4))
  | .cop => exCop k w c
  | .arr o => exArr k o w tail c

/-! ### Instruction boundaries -/

/-- Nothing of the core's own keeps it from an instruction or an interrupt: it runs, no request or divide holds it, and no machine check,
stop or FLUSH waits that the LINKED cores would not first align for (R200, R407, R457, R536). -/
def canGoOn (c : Chip) (k : Nat) : Bool :=
  let x := c.core k
  !c.pwr.off && c.running k && !c.halted k && !c.dfault k && x.cop.isNone && !divHold c k &&
    ((!x.stop && x.mchk.isEmpty && !x.flush) || c.behind k || x.xact != Xact.none)

/-- Core k executes its next instruction now, or goes on with a load or store whose requests have been sent (R495). In a LINKED halt a core
that has retired fewer runs on (R497). -/
def mayRun (c : Chip) (k : Nat) : Bool :=
  let x := c.core k
  let behind := c.linked && (c.flockCores k).any (fun j => decide (x.retired < (c.core j).retired))
  canGoOn c k && (x.halt.isNone || behind || x.xact != Xact.none)

/-- A single step ends with cause STEP (R500). -/
def stepEnd (k : Nat) (c : Chip) : Chip :=
  let x := c.core k
  if x.stepping && x.halt.isNone then c.setCore k { x with halt := some 4 } else c

/-- The end of an instruction of `n` nonets that has no taken jump: the next word, or the loop's return (R183). DESIGN CHOICE (log entry 10):
an LBEG that MTS left off a multiple of 4 returns to the word that holds it, because PC is a multiple of 4 (R169). -/
def advance (k n : Nat) (c : Chip) : Chip :=
  let next := c.pc k + BitVec.ofNat 36 n
  if c.psw k pswLA && next == c.sr k srLEND + 4 then
    let l := c.sr k srLCNT
    if l.toNat ≤ 1 then ((c.setSr k srLCNT 0).setPsw k pswLA false).setPc k next
    else (c.setSr k srLCNT (l - 1)).setPc k (c.sr k srLBEG &&& ~~~(3 : Word))
  else c.setPc k next

/-- A taken branch or jump: outside the body it ends the loop (R183). -/
def jumpTo (k : Nat) (t : Word) (c : Chip) : Chip :=
  let inside := decide ((c.sr k srLBEG).toNat ≤ t.toNat) && decide (t.toNat ≤ (c.sr k srLEND).toNat)
  (if c.psw k pswLA && !inside then c.setPsw k pswLA false else c).setPc k t

/-- The instruction counts as retired; a FLUSH may have waited for it (R457). -/
def retireOne (k : Nat) (c : Chip) : Chip :=
  let x := c.core k
  flushTry k (stepEnd k (c.setCore k { x with retired := x.retired + 1, skip := false }))

/-- A trap entry ends a step as well. -/
def trapAt (k code : Nat) (tpc tval : Word) (c : Chip) : Chip :=
  let c := trapEntry k code tpc tval c
  stepEnd k (c.setCore k { c.core k with skip := false })

/-- One word of the core's own bank (R169). DESIGN CHOICE (log entry 10): the word is read when it is executed, so a store to a word that
the core might have prefetched is seen (R179 lets it be seen or not). -/
inductive Fetched where
  | word (w : Word)
  | fault
  | hold
  | bad (c : Chip)

def fetchAt (k : Nat) (pc : Word) (c : Chip) : Fetched :=
  if 0o17777774 < pc.toNat ∨ bankOn c k = false then .fault
  else if bankClearing c k then .hold
  else
    let r := c.bankRead k (bankBase k + pc.toNat) 0 allNonets
    if r.2.1 then .bad (bankCheck k r.2.2) else .word r.1

/-- One instruction of core k, when the word at PC is the operation `tag`; `none` stands for a word that no table assigns. -/
def coreStep (k : Nat) (tag : Option Tag) (c : Chip) : Chip :=
  if !mayRun c k then c
  else
    let pc := c.pc k
    let fresh := (c.core k).xact == Xact.none
    match (if fresh then fetchAt k pc c else .word (c.core k).ir) with
    | .fault => trapAt k 0o002 pc pc c
    | .hold => c
    | .bad c => c
    | .word w =>
      if tagOf w ≠ tag then c
      else
        let on := fresh && !(c.core k).skip
        let m := if on then cmpAct k (cmpMatch c k [0] pc.toNat 4) c else (0, c)
        let c := m.2
        if m.1 = 1 then c
        else if m.1 = 2 then trapAt k 0o016 pc 0 c
        else match tag with
          | none => unassigned w pc c
          | some t => if !scalarLegal t w then trapAt k 0o001 pc w c else run t w pc on c
where
  /-- ILLEGAL. A word of the array format has its tail fetched first (R101, R186). -/
  unassigned (w pc : Word) (c : Chip) : Chip :=
    if 0o140 ≤ wOp w ∧ wOp w ≤ 0o157 then
      match fetchAt k (pc + 4) c with
      | .fault => trapAt k 0o002 pc (pc + 4) c
      | .hold => c
      | .bad c => c
      | .word _ => trapAt k 0o001 pc w c
    else trapAt k 0o001 pc w c
  /-- The instruction runs; an array instruction has its tail fetched first. -/
  run (t : Tag) (w pc : Word) (on : Bool) (c : Chip) : Chip :=
    match t with
    | .arr o =>
      match fetchAt k (pc + 4) c with
      | .fault => trapAt k 0o002 pc (pc + 4) c
      | .hold => c
      | .bad c => c
      | .word tail =>
        match exArr k o w tail c with
        | .done c =>
          let c := retireOne k (advance k 8 c)
          if c.linked then c else mseqStart k c
        | .trap code v c => trapAt k code pc v c
        | _ => c
    | t =>
      match execOp k t on w 0 c with
      | .done c => retireOne k (advance k 4 c)
      | .jump target c =>
        if t = .sys 4 then retireOne k c else retireOne k (if t = .loop then c.setPc k target else jumpTo k target c)
      | .trap code v c => trapAt k code pc v c
      | .wait => c
      | .stay c => c
      | .brk c => askHalt k 0 3 (retireOne k (advance k 4 c))

/-- INTERRUPT_ENTRY (R198, R199, R185, R500). -/
def interruptStep (k : Nat) (c : Chip) : Chip :=
  let x := c.core k
  let ready := canGoOn c k && x.xact == Xact.none && x.halt.isNone && c.psw k pswIE && (!x.stepping || c.flag pgGander 2 12)
  match (if ready then topLevel c k else none) with
  | none => c
  | some l =>
    let waiting := c.flag (pgBw k) 3 2
    let c := if waiting then retireOne k (advance k 4 c) else c
    stepEnd k (interruptEntry k l (c.pc k) c)

/-- MACHINE_CHECK_ENTRY (R200, R455, R537). -/
def machineCheckStep (k : Nat) (c : Chip) : Chip :=
  let x := c.core k
  match x.mchk with
  | [] => c
  | m :: _ =>
    if c.running k && !c.halted k && !c.dfault k && !x.stop && x.cop.isNone && x.xact == Xact.none && !divHold c k && x.halt.isNone && !c.behind k then
      stepEnd k (mchkEntry k m.code m.tval (c.setCore k { x with mchk := [] }))
    else c

/-- The end of a coprocessor request of core j: a value for W(RD), or the coprocessor-error trap with its TVAL (R191, R192). A fed
request leaves PC, and meets no trap (R501). -/
def copEnd (j : Nat) (v : Option Word) (tval : Word) (c : Chip) : Chip :=
  match (c.core j).cop with
  | none => c
  | some q =>
    let c := c.setCore j { c.core j with cop := none }
    match v with
    | some v =>
      let c := c.setW j q.rd v
      if c.halted j then c else retireOne j (advance j 4 c)
    | none => if c.halted j then c else trapAt j 0o020 (c.pc j) tval c

/-- The FEED command that waits for a coprocessor reply ends (R501). -/
def fedCopEnd (k : Nat) (ok : Bool) (tval : Word) (c : Chip) : Chip :=
  match c.dbg.cmd with
  | some w =>
    if fieldOf w 30 6 = 5 ∧ (c.flockCores k).any (fun j => bitAt w (26 + j)) = true then
      if ok then portEnd 0 c else portEnd 4 ((c.setPort 8 0o020).setPort 9 tval)
    else c
  | none => c

/-- The reply of core k's request: its value, or the trap on CERR, GONE or LOST. In LINKED it reaches every core (R191, R193). -/
def copReplied (k status : Nat) (data : List (BitVec 9)) (c : Chip) : Chip :=
  let v := if status = 0 then some (wordOf data) else none
  fedCopEnd k v.isSome 0 ((c.flockCores k).foldl (fun c j => copEnd j v 0 c) c)

/-- RING_COPR (R191): a reply to a request that has ended is discarded (R192, R346). -/
def ringCopr (k lat hdr : Nat) (c : Chip) : Chip :=
  match takeResponse opCopr (initStop k) lat hdr c with
  | (none, c) => c
  | (some (_, x), c) =>
    match (c.core k).cop with
    | none => stopLost (initStop k) c
    | some q => if !q.taken || q.tag != x.tag then stopLost (initStop k) c else copReplied k x.status x.data c

/-- The LOST answers to coprocessor requests reach their cores (R315). -/
def copLost (c : Chip) : Chip :=
  cores4.foldl (fun c k =>
    match (c.core k).cop with
    | some q =>
      if !q.taken || (c.linked && k != 0) then c
      else (match takeGot (initStop k, q.tag) c with
        | (some r, c) => copReplied k r.status r.data c
        | (none, c) => c)
    | none => c) c

/-- COP_TIMEOUT (R192): no reply; in LINKED to the one request of the four. -/
def copTimeout (k : Nat) (c : Chip) : Chip :=
  match (c.core k).cop with
  | none => c
  | some r => if r.sent then fedCopEnd k false 1 ((c.flockCores k).foldl (fun c j => copEnd j none 1 c) c) else c

end Sys2Proof.Machine
end

