-- ==== Sys2Proof/Machine/Gander.lean ====
section
/-!
DEFINITION. The debug port of Gander and its commands, JTAG, and the management targets (R488 to R512, R520, R521, R529).
-/
namespace Sys2Proof.Machine

/-- Bit w of CMD.MASK names core k. -/
def cmdMask (w : Word) : Nat := fieldOf w 26 4
def maskCores (w : Word) : List Nat := cores4.filter (fun k => (cmdMask w).testBit k)

/-- A result and the end of a command. -/
def cmdEnd (code : Nat) (res : List Word) (c : Chip) : Chip :=
  portEnd code ((res.zipIdx).foldl (fun c x => c.setPort (8 + x.2) x.1) c)

/-! ### Halting, resuming and stepping (R495 to R502) -/

/-- HALT: STATE when a named core is not released. -/
def cmdHalt (w : Word) (c : Chip) : Chip :=
  let ks := maskCores w
  if ks.any (fun k => !c.running k) then portEnd 3 c
  else portEnd 0 (ks.foldl (fun c k => askHalt k 0 1 c) c)

/-- RESUME: each named core that is halted; in LINKED all four act as one (R497). -/
def cmdResume (w : Word) (c : Chip) : Chip :=
  portEnd 0 ((maskCores w).foldl (fun c k => (c.flockCores k).foldl (fun c j => unhalt j false c) c) c)

/-- The one core that STEP and FEED name, with the mask rule of R502. -/
def steppable (c : Chip) (k : Nat) : Bool :=
  (!c.linked || k == 0) && (c.flockCores k).all (fun j => c.halted j)

/-- STEP: the command ends when the core has halted again. -/
def cmdStep (k : Nat) (c : Chip) : Chip :=
  if !steppable c k then portEnd 3 c else (c.flockCores k).foldl (fun c j => unhalt j true c) c

/-! ### FEED (R501, R502) -/

/-- What a fed instruction would do in core k: the code and values of FEEDTRAP or WAIT, or the state after it. -/
def feedOne (k : Nat) (w tail : Word) (c : Chip) : (Nat × Word × Word) ⊕ Chip :=
  match tagOf w with
  | none => .inl (4, 1, w)
  | some t =>
    if !scalarLegal t w || t = .loop || t = .sys 3 || t = .sys 4 || t = .sys 5 || t = .sys 9 then .inl (4, 1, w)
    else if t = .arr .div || t = .arr .gdiv then
      (match execOp k t false w tail c with
       | .trap code v _ => .inl (4, BitVec.ofNat 36 code, v)
       | _ => .inl (5, 0, 0))
    else match execOp k t false w tail c with
      | .done c => .inr c
      | .jump target c => .inr (jumpTo k target c)
      | .trap code v _ => .inl (4, BitVec.ofNat 36 code, v)
      | .wait => .inl (5, 0, 0)
      | .stay c => .inr c
      | .brk c => .inr c

/-- FEED ends once no fed request is out in any core it acts on. -/
def feedEnd (ks : List Nat) (c : Chip) : Chip :=
  if ks.any (fun j => (c.core j).cop.isSome || (c.core j).xact != Xact.none) then c else portEnd 0 c

/-- FEED: checked in every core it acts on before any executes it; a request that goes over the ring ends it with its answer. -/
def cmdFeed (k : Nat) (c : Chip) : Chip :=
  let w := c.port 4
  let tail := c.port 5
  if !steppable c k then portEnd 3 c
  else
    let ks := c.flockCores k
    match ks.findSome? (fun j => match feedOne j w tail c with | .inl e => some e | .inr _ => none) with
    | some e => if e.1 = 4 then cmdEnd 4 [e.2.1, e.2.2] c else portEnd 5 c
    | none => feedEnd ks (ks.foldl (fun c j => match feedOne j w tail c with | .inr c => c | .inl _ => c) c)

/-- A fed load, store or atomic goes on; one that meets a trap at its target ends the command (R501). -/
def feedOn (k : Nat) (c : Chip) : Chip :=
  let ks := c.flockCores k
  let go (x : Option (Word × Word) × Chip) (j : Nat) : Option (Word × Word) × Chip :=
    let y := x.2.core j
    if y.xact = Xact.none then x
    else match feedOne j y.ir 0 x.2 with
      | .inr c => (x.1, c)
      | .inl e => (some e.2, (x.2.abandon y.xact).setCore j { y with xact := Xact.none })
  match ks.foldl go (none, c) with
  | (none, c) => feedEnd ks c
  | (some e, c) => cmdEnd 4 [e.1, e.2] c

/-! ### Registers (R503) -/

/-- RDREG. -/
def cmdRdreg (k : Nat) (c : Chip) : Chip :=
  let sel := (c.port 4).toNat
  let i := sel - 0o100
  if !(decide (sel < 32) || (decide (0o100 ≤ sel) && mfsIndex i)) then portEnd 1 c
  else if !c.halted k then portEnd 3 c
  else if sel < 32 then cmdEnd 0 [c.w k (BitVec.ofNat 5 sel), 0] c
  else
    let pend := if i = srFPSW then fpswPending c k else redPending c k i
    cmdEnd 0 [srValue c k i, ofBool pend] c

/-- The write of WRREG in one core: a result code, or the state after it. -/
def wrregOne (k sel : Nat) (v : Word) (c : Chip) : Nat ⊕ Chip :=
  let i := sel - 0o100
  if sel < 32 then .inr (c.setW k (BitVec.ofNat 5 sel) v)
  else if i = srPC then (if v.toNat % 4 = 0 ∧ v.toNat ≤ 0o17777774 then .inr (c.setPc k v) else .inl 1)
  else if !mtsIndex i then .inl 1
  else if i = srPSW ∧ 16 < fieldOf v 4 5 then .inl 1
  else if i = srFPSW ∧ fpswPending c k = true then .inl 5
  else if i = 0o24 then
    (if (c.termTx k).isSome then .inl 5 else .inr ((c.setTermTx k (some v)).raise pgGander 3))
  else .inr (srWrite k i v c)

/-- WRREG; in LINKED it writes all four cores. -/
def cmdWrreg (k : Nat) (c : Chip) : Chip :=
  let sel := (c.port 4).toNat
  let v := c.port 5
  let ks := c.flockCores k
  if !(decide (sel < 32) || (decide (0o100 ≤ sel) && decide (sel < 0o200))) then portEnd 1 c
  else if !ks.all (fun j => c.halted j) then portEnd 3 c
  else match ks.findSome? (fun j => match wrregOne j sel v c with | .inl e => some e | .inr _ => none) with
    | some e => portEnd e c
    | none => portEnd 0 (ks.foldl (fun c j => match wrregOne j sel v c with | .inr c => c | .inl _ => c) c)

/-! ### Memory (R509, R510) -/

/-- The KIND, address and LEN of MRD and MWR, if they are in range: (words?, address, elements). -/
def memArgs (live : Bool) (c : Chip) : Option (Bool × Nat × Nat) :=
  let a1 := c.port 5
  let hbm := bitAt a1 4
  let n := (c.port 6).toNat
  let a := (c.port 4).toNat
  if fieldOf a1 6 30 != 0 || fieldOf a1 2 2 != 0 || (!live && bitAt a1 5) then none
  else if hbm then
    let a := a + 2 ^ 36 * fieldOf a1 0 2
    if 256 < n ∨ 4 * dieSize < a + n then none else some (false, a, n)
  else if fieldOf a1 0 2 ≠ 0 ∨ 56 < n ∨ a % 4 ≠ 0 ∨ 2 ^ 36 < a + 4 * n then none
  else some (true, a, 4 * n)

/-- The words of BUF from slot 256 that hold `n` nonets. -/
def bufNonets (c : Chip) (n : Nat) : List (BitVec 9) := ((List.range 64).flatMap (fun i => nonetsOf (c.port (256 + i)))).take n
/-- Nonets into BUF, four to a slot. -/
def setBuf (ds : List (BitVec 9)) (c : Chip) : Chip :=
  (List.range ((ds.length + 3) / 4)).foldl (fun c i => c.setPort (256 + i) (wordOf ((ds.drop (4 * i)).take 4))) c

/-- The running command goes on with its ring requests; what it does when they are all answered depends on the command. -/
def dbgRequests (done : List Srv → Chip → Chip) (c : Chip) : Chip :=
  let r := gather .gander (fun st => st == 0) c.dbg.reqs c.dbg.xact c
  let c := { r.2.2 with dbg := { r.2.2.dbg with xact := r.2.1 } }
  if r.1 then done r.2.1.ans c else c

/-- The status that ends a command: that of the last answer, which is the first that is not OK. -/
def lastStatus (rs : List Srv) : Nat := (rs.getLastD (Srv.of 0)).status

/-- MRD is over. -/
def mrdDone (rs : List Srv) (c : Chip) : Chip :=
  let r := rs.getLastD (Srv.of 0)
  if r.status ≠ 0 then cmdEnd 6 [BitVec.ofNat 36 r.status] c
  else cmdEnd 0 [0, BitVec.ofNat 36 r.mask.length, BitVec.ofNat 36 (r.mask.headD 0)] (setBuf r.data c)

/-- MWR is over. -/
def mwrDone (rs : List Srv) (c : Chip) : Chip :=
  cmdEnd (if lastStatus rs = 0 then 0 else 6) [BitVec.ofNat 36 (lastStatus rs)] c

/-- The request of MRD (R509, R510). -/
def mrdReqs (nonet : Bool) (a n : Nat) (c : Chip) : List (Nat × Pkt) :=
  [(opRd, { request .gander nonet a n [] [] c with tag := if bitAt (c.port 5) 5 then 32 else 0 })]

/-- The requests of MWR (R509): one WR per word of register pages, else a WRP and the probe; a LEN of 0 sends the probe alone. -/
def mwrReqs (nonet : Bool) (a n : Nat) (c : Chip) : List (Nat × Pkt) :=
  let ds := bufNonets c n
  if nonet ∧ 0o200000000 ≤ a ∧ a < 0o240000000 ∧ n ≠ 0 then
    (List.range (n / 4)).map (fun i => (opWr, request .gander true (a + 4 * i) 4 ((ds.drop (4 * i)).take 4) [] c))
  else
    let ds := if nonet then ds else ds.map (fun d => (d.setWidth 8).setWidth 9)
    (if n = 0 then [] else [(opWrp, request .gander nonet a n ds [] c)]) ++ [(opRd, request .gander nonet a 0 [] [] c)]

/-! ### AUTH (R493) -/

/-- The requests of steps 1 to 3: words 1 to 256 of the mailbox and word 0, a probe, and THONOS.CTRL. -/
def authReqs (cmd n : Nat) (c : Chip) : List (Nat × Pkt) :=
  let tm := c.fld pgGander 16 0 20
  let mb := bankBase 4 + 4 * tm
  let buf := (List.range 256).flatMap (fun i => nonetsOf (c.port (256 + i)))
  let put (a : Nat) (ds : List (BitVec 9)) : Nat × Pkt := (opWrp, request .gander true a ds.length ds [] c)
  (piecesOf 1024 224).map (fun q => put (mb + 4 + q.1) ((buf.drop q.1).take q.2)) ++
    [put mb (nonetsOf (withField (withField 0 30 6 cmd) 18 12 n)), (opRd, request .gander true mb 0 [] [] c),
     (opWr, request .gander true (0o200000000 + pgThonos * 0o4000 + 8) 4 (nonetsOf (withField (withField 0 30 6 cmd) 0 20 tm)) [] c)]

/-- AUTH has given Thonos its command, and waits for DONE. -/
def authSent (rs : List Srv) (c : Chip) : Chip :=
  if lastStatus rs ≠ 0 then cmdEnd 6 [BitVec.ofNat 36 (lastStatus rs)] c
  else { c with dbg := { c.dbg with reqs := [], xact := Xact.none } }

/-- The running command goes on (R492): AUTH once Thonos is free, a fed instruction, MRD and MWR. -/
def ganderPump (c : Chip) : Chip :=
  match c.dbg.cmd with
  | none => c
  | some w =>
    match fieldOf w 30 6 with
    | 1 => if c.dbg.reqs.isEmpty || (c.dbg.xact == Xact.none && c.flag pgThonos 3 23) then c else dbgRequests authSent c
    | 5 => feedOn ((maskCores w).headD 0) c
    | 8 => dbgRequests mrdDone c
    | 9 => dbgRequests mwrDone c
    | _ => c

/-- A command that makes ring requests starts. -/
def dbgStart (reqs : List (Nat × Pkt)) (c : Chip) : Chip := ganderPump { c with dbg := { c.dbg with reqs := reqs } }

/-- MRD and MWR: BADCMD for arguments out of range. -/
def cmdMrd (c : Chip) : Chip :=
  match memArgs true c with
  | none => portEnd 1 c
  | some (nonet, a, n) => dbgStart (mrdReqs nonet a n c) c
def cmdMwr (c : Chip) : Chip :=
  match memArgs false c with
  | none => portEnd 1 c
  | some (nonet, a, n) => dbgStart (mwrReqs nonet a n c) c

/-- AUTH: the mailbox is filled and Thonos gets the command. -/
def cmdAuth (c : Chip) : Chip :=
  let cmd := (c.port 4).toNat
  let n := (c.port 5).toNat
  if 64 ≤ cmd ∨ 1024 < n then portEnd 1 c else dbgStart (authReqs cmd n c) c

/-! ### The port (R489, R490, R492) -/

/-- The command of a CMD word, once no other command runs. -/
def portCommand (w : Word) (c : Chip) : Chip :=
  let op := fieldOf w 30 6
  let m := cmdMask w
  let k := (maskCores w).headD 0
  let one := [1, 2, 4, 8].contains m
  let run := { c with dbg := { c.dbg with cmd := some w, reqs := [], xact := Xact.none } }
  if op ≠ 0 ∧ op ≠ 1 ∧ authorised c = false then (portEnd 2 run)
  else if 0o12 < op ∨ fieldOf w 0 26 ≠ 0 then (portEnd 1 run)
  else if op ≤ 1 ∨ 0o10 ≤ op then
    if m ≠ 0 then (portEnd 1 run)
    else match op with
      | 0 => (portEnd 0 run)
      | 1 => cmdAuth run
      | 0o10 => cmdMrd run
      | 0o11 => cmdMwr run
      | _ => (deviceReset 6 run)
  else if m = 0 then (portEnd 0 run)
  else if op = 2 then (cmdHalt w run)
  else if op = 3 then (cmdResume w run)
  else if !one then (portEnd 1 run)
  else if op = 4 then (cmdStep k run)
  else if op = 5 then (cmdFeed k run)
  else if op = 6 then (cmdRdreg k run)
  else (cmdWrreg k run)

/-- PSTAT as it reads. -/
def pstat (c : Chip) : Word :=
  let bits (f : Nat → Bool) : Nat := cores4.foldl (fun n k => if f k then n + 2 ^ k else n) 0
  withField (withField (withField (withField (withField (c.port 3) 35 1 c.dbg.cmd.isSome.toNat) 29 1 (authorised c).toNat) 25 4
    (bits c.halted)) 21 4 (bits (fun k => (c.termTx k).isSome))) 17 4 (bits (fun k => (c.termRx k).isSome))

/-- REFUSED is set. -/
def portRefuse (c : Chip) : Chip := c.setPort 3 (withField (c.port 3) 16 1 1)

/-- A read of TERMk (R508). -/
def termRead (k : Nat) (c : Chip) : Word × Chip :=
  if !authorised c || (c.linked && k != 0) then (0, c)
  else
    let ks := c.flockCores k
    if ks.all (fun j => (c.termTx j).isSome) then ((c.termTx k).getD 0, ks.foldl (fun c j => c.setTermTx j none) c) else (0, c)
/-- A write of TERMk (R508). -/
def termWrite (k : Nat) (v : Word) (c : Chip) : Chip :=
  let ks := c.flockCores k
  if !authorised c || (c.linked && k != 0) || ks.any (fun j => (c.termRx j).isSome) then portRefuse c
  else ks.foldl (fun c j => c.setTermRx j (some v)) c

/-- The port serves its routes from the end of BOOT step 1, except in OFF (R488). -/
def portServes (c : Chip) : Bool := !c.pwr.off
/-- The number of a route in OWN: JTAG 1, PCI Express 2. -/
def routeNo (jtag : Bool) : Nat := if jtag then 1 else 2
def ownsPort (c : Chip) (jtag : Bool) : Bool := (c.port 1).toNat == routeNo jtag

/-- A read of a port slot. -/
def dbgRead (jtag : Bool) (s : Nat) (c : Chip) : Word × Chip :=
  if !portServes c then (0, c)
  else if s = 0 then (withField (withField 0 27 9 0o037) 18 9 1, c)
  else if s = 1 then (c.port 1, c)
  else if s = 3 then (pstat c, c)
  else if !ownsPort c jtag then (0, c)
  else if 12 ≤ s ∧ s < 16 then termRead (s - 12) c
  else if s = 2 ∨ (16 ≤ s ∧ s < 256) then (0, c)
  else (c.port s, c)

/-- PORT_OWN_WRITE (R490). -/
def ownWrite (jtag : Bool) (v : Word) (c : Chip) : Chip :=
  let r := routeNo jtag
  if !portServes c then c
  else if c.port 1 = 0 ∧ v.toNat % 4 = r then c.setPort 1 (BitVec.ofNat 36 r)
  else if ownsPort c jtag ∧ v.toNat % 4 = 0 then c.setPort 1 0
  else c

/-- A write of CMD (R492): refused while a command runs. -/
def cmdWrite (w : Word) (c : Chip) : Chip := if c.dbg.cmd.isSome then portRefuse c else portCommand w c

/-- A write of a port slot. -/
def dbgWrite (jtag : Bool) (s : Nat) (v : Word) (c : Chip) : Chip :=
  if !portServes c then c
  else if s = 1 then ownWrite jtag v c
  else if !ownsPort c jtag then c
  else if s = 2 then cmdWrite v c
  else if s = 3 then (if bitAt v 16 then c.setPort 3 (withField (c.port 3) 16 1 0) else c)
  else if (4 ≤ s ∧ s < 8) ∨ (256 ≤ s ∧ s < 512) then c.setPort s v
  else if 12 ≤ s ∧ s < 16 then termWrite (s - 12) v c
  else c

/-- A write of CMD with an operation and a mask, by the owner. -/
def portCmd (jtag : Bool) (op : Nat) (mask : BitVec 4) (c : Chip) : Chip :=
  dbgWrite jtag 2 (withField (withField 0 30 6 op) 26 4 mask.toNat) c

/-- The port is released (R490). -/
def releasePort (jtag : Bool) (c : Chip) : Chip := if ownsPort c jtag then c.setPort 1 0 else c

/-! ### JTAG (R491, R529) -/

/-- EXTEST, CLAMP and HIGHZ take hold only in OFF with TEST_EN low, which R516 makes the condition of leaving OFF, and in
MAINTENANCE. -/
def pinTestOk (c : Chip) (testEnLow : Bool) : Bool := (c.pwr.off && testEnLow) || (!c.pwr.off && c.mode == modeMaint)

/-- JTAG_UPDATE_IR: the instruction that acts; every other code is BYPASS. -/
def updateIr (ir : BitVec 6) (testEnLow : Bool) (c : Chip) : Chip :=
  let ok := [0x00, 0x01, 0x02, 0x04, 0x05, 0x28].contains ir.toNat && (!([0x00, 0x04, 0x05].contains ir.toNat) || pinTestOk c testEnLow)
  { c with pins := { c.pins with ir := if ok then ir else 0x3F } }

/-- JTAG_UPDATE_DR: GDBG makes one port access; SAMPLE/PRELOAD and EXTEST load the boundary-scan register. -/
def updateDr (v : BitVec 303) (c : Chip) : Chip :=
  let ir := c.pins.ir.toNat
  if ir = 0x28 then
    if !portServes c then c
    else
      let data := v.setWidth 36
      let s := ((v >>> 36).setWidth 9).toNat
      if v.getLsbD 45 then
        let c := dbgWrite true s data c
        { c with dbg := { c.dbg with jdone := true } }
      else
        let r := dbgRead true s c
        { r.2 with dbg := { r.2.dbg with jdata := r.1, jdone := true } }
  else if ir = 0x00 ∨ ir = 0x02 then { c with pins := { c.pins with bsr := v } }
  else c

/-- IDCODE, with the STEP of HUB.PART in its top four bits (R529). -/
def idcode : BitVec 32 := (partWord.setWidth 4 : BitVec 4) ++ (0x7236BC7#28)

/-- What Capture-DR loads for the current instruction: the length of its data register and the value (R491, R529). What the boundary-scan
cells sample is the board's; the register shows what it was last loaded with (log entry 24). -/
def captureDr (c : Chip) : Nat × BitVec 303 :=
  match c.pins.ir.toNat with
  | 0x28 => (48, c.dbg.jdata.setWidth 303 ||| (if c.dbg.jdone then 1#303 <<< 46 else 0))
  | 0x01 => (32, idcode.setWidth 303)
  | 0x00 | 0x02 => (303, c.pins.bsr)
  | _ => (1, 0)

/-- TAP_RESET: Test-Logic-Reset selects IDCODE and releases JTAG ownership. -/
def tapReset (c : Chip) : Chip := releasePort true { c with pins := { c.pins with ir := 1 } }

/-! ### Management targets (R520, R521) -/

def mgmtServed (p s : Nat) : Bool := p == 0 || p == 1 || p == 4 || p == 57 || (p == 58 && decide (s ≤ 3))

/-- MGMT_SELECT: four octets select page and slot. -/
def mgmtSelect (i3c : Bool) (p s : BitVec 16) (c : Chip) : Chip :=
  let c := { c with pins := { c.pins with sel := SMap.set (fun _ => (0, 0)) c.pins.sel i3c.toNat (p.toNat, s.toNat) } }
  if c.pwr.off then c else c.count pgBoard 16 1

/-- MGMT_READ: six octets. -/
def mgmtRead (i3c : Bool) (c : Chip) : Chip :=
  let q := SMap.get (fun _ => (0, 0)) c.pins.sel i3c.toNat
  let served := mgmtServed q.1 q.2 && decide (q.2 < 512)
  let st := if !served then 2 else if c.pwr.off && q.1 != pgAon then 1 else 0
  let v : Word := if st = 0 then slotValue q.1 q.2 c else 0
  let os : List Octet := (List.range 4).map (fun i => (v >>> (8 * i)).setWidth 8) ++ [((v >>> 32).setWidth 4).setWidth 8, BitVec.ofNat 8 st]
  let c := { c with out := c.out ++ [.mgmt os] }
  if c.pwr.off then c
  else
    let c := c.count pgBoard 16 1
    if st = 2 then c.raise pgBoard 0 else c

/-- I3C_DAA: the target accepts a dynamic address, and sends the in-band interrupt that waited for it. -/
def i3cDaa (a : BitVec 7) (c : Chip) : Chip :=
  if c.pwr.off then c
  else
    let c := c.setFld pgBoard 3 10 7 a.toNat
    if c.pins.ibiPending && a != 0 then
      { c with pins := { c.pins with ibiPending := false }, out := c.out ++ [.ibi a.toNat] }
    else c

end Sys2Proof.Machine
end

