-- ==== Sys2Proof/Machine/HostLink.lean ====
section
/-!
DEFINITION. The host link: inbound requests, MSI-X tables, links, functions (R48, R63, R64, R380 to R388, R397 to R399).
-/
namespace Sys2Proof.Machine

/-! ### Links and functions (R380, R381, R388) -/

/-- The island of half h runs (R380). -/
def halfOn (c : Chip) (h : Nat) : Bool := !c.pwr.off && !pageOff c (pgPcie h)

/-- The link of half h is in L0 or in recovery from it. -/
def linkLive (c : Chip) (h : Nat) : Bool := linkUp c h || c.fld (pgPcie h) 3 0 3 == 3

/-- FLR of function f (R388, R389, R490): requests that are on a ring complete without completions, and Max Payload Size keeps its setting
(PCI Express; log entry 12). -/
def flr (f code : Nat) (landed : List Bool) (c : Chip) : Chip :=
  let c := dmaFlr f code landed c
  let mine := (SMap.get (fun _ => []) c.hst.reqs (pfHalf c f)).filterMap (fun (r : HostReq) =>
    if r.f ≠ f then some r else if r.xact = Xact.none then none else some { r with drop := true })
  let c := { c with hst := { c.hst with
    reqs := SMap.set (fun _ => []) c.hst.reqs (pfHalf c f) mine
    sizes := SMap.set sizesDefault c.hst.sizes f ((SMap.get sizesDefault c.hst.sizes f).1, 2)
    msix := SMap.drop (fun k => k / 512 == f) c.hst.msix
    pba := SMap.drop (fun v => decide (vectorBase f ≤ v) && decide (v < vectorBase f + vectorCount f)) c.hst.pba } }
  let c := (c.setReg (pgPf f) 17 0).setReg (pgPf f) 16 0
  let c := if f = 3 then releasePort false c else c
  c.raise (pgPf f) 0

/-- The functions that the link of half h carries. -/
def halfPfs (c : Chip) (h : Nat) : List Nat := [0, 1, 2, 3].filter (fun f => pfHalf c f == h)

/-- A link leaves L0, or is reset: an FLR of every function of the half, and event PERST (R388). -/
def linkReset (h code : Nat) (landed : List Bool) (c : Chip) : Chip :=
  if !halfOn c h then c
  else
    let up := linkLive c h
    let c := (halfPfs c h).foldl (fun c f => flr f code landed c) c
    let p := pgPcie h
    let c := c.setReg p 3 (withField (withField (withField (withField (c.reg p 3) 11 3 0) 6 5 0) 5 1 0) 0 3 0)
    let c := c.raise p 3
    if up then c.raise p 1 else c

/-- LINK_DOWN: the link is lost, in L0 or in recovery. -/
def linkDown (h : Nat) (landed : List Bool) (c : Chip) : Chip := if linkLive c h then linkReset h 0o12 landed c else c

/-- LINK_TRAINING_DONE (R381, R398): the rate and width reached, in FLIT mode at 64.0 GT/s alone. Training that fails (`up`), that ends
below 8.0 GT/s, or with MAXGEN 0 returns the link to Detect, and a link that was in recovery is down. -/
def linkTrained (h : Nat) (gen : BitVec 3) (width : Nat) (up : Bool) (c : Chip) : Chip :=
  let p := pgPcie h
  let max := c.fld p 2 0 3
  let st := c.fld p 3 0 3
  let lanes := if bifurcated c then 8 else 16
  if !halfOn c h || linkUp c h || !([1, 2, 4, 8, 16].contains width) || decide (lanes < width) then c
  else if gen.toNat < 3 ∨ max = 0 ∨ up = false then
    if st = 0 ∧ max = 0 then c else (if st = 3 then linkReset h 0o12 [] c else c.setFld p 3 0 3 0).raise p 2
  else if max < gen.toNat then c
  else
    let w := withField (withField (withField (withField (c.reg p 3) 11 3 gen.toNat) 6 5 width) 5 1 (gen == 6).toNat) 0 3 2
    (c.setReg p 3 w).raise p 0

/-- FLR by the host. -/
def flrCmd (f : Nat) (landed : List Bool) (c : Chip) : Chip :=
  if halfOn c (pfHalf c f) && linkUp c (pfHalf c f) then flr f 0o13 landed c else c

/-- A configuration access can reach function f. -/
def cfgReach (c : Chip) (f : Nat) : Bool := halfOn c (pfHalf c f) && linkUp c (pfHalf c f)

/-- BAR2_RESIZE (R385); PF3 has no BAR2. -/
def bar2Resize (f sz : Nat) (c : Chip) : Chip :=
  if !cfgReach c f || f == 3 || decide (8 < sz) then c
  else ((c.setFld (pgPf f) 17 12 4 sz).setFld (pgPf f) 16 0 8 0).raise (pgPf f) 1

/-- D3_ENTRY and D0_RETURN (R391, Table 13-8). -/
def d3Entry (f : Nat) (c : Chip) : Chip := if cfgReach c f && !pfD3 c f then (c.setFlag (pgPf f) 17 11 true).raise (pgPf f) 2 else c
def d0Return (f : Nat) (c : Chip) : Chip := if cfgReach c f then c.setFlag (pgPf f) 17 11 false else c

/-- CONFIGURATION_WRITE (R382, R391, R397): Command, MSI-X control, Device Control and AER status; a descriptor under way ends with FUNC when Bus Master Enable falls. -/
def configWrite (f : Nat) (bme mse msixEn fmask : Bool) (mps mrrs : Nat) (aer : BitVec 32) (landed : List Bool) (c : Chip) : Chip :=
  if !cfgReach c f then c
  else
    let h := pfHalf c f
    let c := if pfBme c f && !bme then
        (List.range 4).foldl (fun c e => if c.fld (pgPcie h) (17 + 8 * e) 33 2 = f then dmaEarly h e 0o07 [] landed c else c) c
      else c
    let c := { c with hst := { c.hst with
      sizes := SMap.set sizesDefault c.hst.sizes f (mps, mrrs)
      aer := SMap.set (fun _ => 0) c.hst.aer f (SMap.get (fun _ => 0) c.hst.aer f &&& ~~~aer) } }
    c.setReg (pgPf f) 17 (withField (withField (withField (withField (c.reg (pgPf f) 17) 10 1 bme.toNat) 9 1 mse.toNat) 8 1
      msixEn.toNat) 7 1 fmask.toNat)

/-! ### Completions -/

def octetsOf (n : Nat) (v : Nat) : List Octet := (List.range n).map (fun i => BitVec.ofNat 8 (v / 256 ^ i))
/-- HUB.BADACC counts (R61). -/
def badAccess (c : Chip) : Chip := c.count pgHub 17 1

/-- A request of function f that fails is completed with its status, 1 unsupported or 2 aborted, and no data. -/
def failed (f status : Nat) (c : Chip) : Chip := aerSet f (if status = 1 then 20 else 15) { c with out := c.out ++ [.cpl status false []] }

/-- The completions of a read of `data` from offset `off`, one for each part of a 64-octet line, with EP where a part is poisoned. -/
def completions (h off : Nat) (data : List (BitVec 9)) (c : Chip) : Chip :=
  let n := data.length
  let lines := (List.range ((off % 64 + n + 63) / 64)).map (fun i => (64 * i - off % 64, min n (64 * (i + 1) - off % 64)))
  let out := lines.map (fun x =>
    let part := (data.drop x.1).take (x.2 - x.1)
    Out.cpl 0 (part.any (fun d => d.getLsbD 8)) (part.map (fun d => d.setWidth 8)))
  let c := { c with out := c.out ++ out }
  if data.any (fun d => d.getLsbD 8) then c.raise (pgPcie h) 4 else c

/-! ### MSI-X tables (R384, PCI Express) -/

/-- Offset of a BAR0 address in the table or the PBA of function f. -/
def msixAt (f off : Nat) : Option (Bool × Nat) :=
  let tab := match f with | 1 => 0 | 3 => 0x2000 | _ => 0x3C000
  let pba := match f with | 1 => 0x2000 | 3 => 0x3000 | _ => 0x3D000
  if tab ≤ off ∧ off < tab + 0x1000 then some (true, off - tab)
  else if pba ≤ off ∧ off < pba + 0x1000 then some (false, off - pba) else none

def msixSizeOk (off n : Nat) : Bool := (n == 4 || n == 8) && off % n == 0

/-- A dword of the table or of the PBA. -/
def msixDword (c : Chip) (f : Nat) (tab : Bool) (i : Nat) : BitVec 32 :=
  if tab then (if i / 4 < vectorCount f then c.msix (f * 512 + i) else 0)
  else (List.range 32).foldl (fun w b =>
    if 32 * i + b < vectorCount f ∧ c.pbaOf (vectorBase f + 32 * i + b) = true then w ||| BitVec.ofNat 32 (2 ^ b) else w) 0

def msixWrite (f off : Nat) (data : List Octet) (c : Chip) : Chip :=
  match msixAt f off with
  | none => c
  | some (tab, o) =>
    if !msixSizeOk o data.length then badAccess c
    else if !tab then c
    else (List.range (data.length / 4)).foldl (fun c j =>
      let i := o / 4 + j
      let v := BitVec.ofNat 32 (le ((data.drop (4 * j)).take 4))
      if i / 4 < vectorCount f then c.setMsix (f * 512 + i) (if i % 4 = 3 then v &&& 1 else v) else c) c

def msixRead (f off n : Nat) (c : Chip) : List Octet × Chip :=
  match msixAt f off with
  | none => (octetsOf n 0, c)
  | some (tab, o) =>
    if !msixSizeOk o n then (octetsOf n 0, badAccess c)
    else ((List.range (n / 4)).flatMap (fun j => octetsOf 4 (msixDword c f tab (o / 4 + j)).toNat), c)

/-! ### Inbound requests (R48, R57, R64, R384 to R387) -/

/-- The function whose stop forwards the requests of half h. -/
def linkWho (c : Chip) (f : Nat) : Who := .host (2 * pfHalf c f)

/-- Function f answers memory requests to BAR `bar`: 0, 2 or 4. -/
def barThere (f bar : Nat) : Bool := bar == 0 || (bar == 2 && f != 3) || (bar == 4 && (f == 0 || f == 2))
/-- Octets of a BAR (R63, Table 13-2); a request outside it is not one that the function supports (log entry 12). -/
def barSize (c : Chip) (f bar : Nat) : Nat :=
  if bar = 2 then 2 ^ (30 + c.fld (pgPf f) 17 12 4) else if bar = 4 then 2 ^ 26 else if f % 2 = 0 then 2 ^ 24 else 0x4000
def memOn (c : Chip) (f : Nat) : Bool := pfMse c f && !pfD3 c f

/-- An access of 8 octets may follow R48. -/
def slotSizeOk (off n : Nat) : Bool := off % 8 == 0 && n % 8 == 0 && n != 0
/-- Nonet address of slot `off / 8` of the register BAR. -/
def pageAddr (off : Nat) : Nat := 0o200000000 + 4 * (off / 8)
/-- The used range of the scratch-bank window (R64). -/
def bankWindow (off : Nat) : Bool := decide (off < 0x2E80000)

/-- Module offset of a BAR2 offset (R385). -/
def bar2At (c : Chip) (f off : Nat) : Nat := c.fld (pgPf f) 16 0 8 * 2 ^ 30 + off

/-- The packets of a BAR2 write: at most 256 octets at 256-octet boundaries, and at most 192 of a poisoned one (R299, R386). -/
def writeCuts (a n : Nat) (poison : Bool) : List (Nat × Nat) :=
  let first := 256 - a % 256
  let cuts := (List.range ((a % 256 + n + 255) / 256)).map (fun i =>
    if i = 0 then (0, min n first) else (first + 256 * (i - 1), min 256 (n - (first + 256 * (i - 1)))))
  if poison then cuts.flatMap (fun q => if q.2 ≤ 192 then [q] else [(q.1, 192), (q.1 + 192, q.2 - 192)]) else cuts

/-- The ring requests of a write that the link forwards (R48, R64, R386). -/
def writeReqs (f bar off : Nat) (data : List Octet) (poison : Bool) (c : Chip) : List (Nat × Pkt) :=
  let who := linkWho c f
  let word (i : Nat) : List (BitVec 9) := nonetsOf (BitVec.ofNat 36 (le ((data.drop (8 * i)).take 8)))
  let slots := List.range (data.length / 8)
  if bar = 0 then slots.map (fun i => (opWr, request who true (pageAddr (off + 8 * i)) 4 (word i) [] c))
  else if bar = 4 then (slots.filter (fun i => bankWindow (off + 8 * i))).map (fun i =>
    (opWr, request who true ((off + 8 * i) / 2) 4 (word i) (if poison then allNonets else []) c))
  else (writeCuts (bar2At c f off) data.length poison).map (fun q =>
    (opWrp, request who false (bar2At c f off + q.1) q.2 (((data.drop q.1).take q.2).map (fun x => x.setWidth 9))
      (if poison then List.range q.2 else []) c))

/-- The end of a forwarded write: GONE is counted (R57), and the dies that posted writes have gone to are recorded (R387). -/
def writeEnd (h bar : Nat) (reqs : List (Nat × Pkt)) (rs : List Srv) (c : Chip) : Chip :=
  let c := rs.foldl (fun c r => if goneStatus r.status then badAccess c else c) c
  if bar ≠ 2 then c
  else reqs.foldl (fun c q =>
    let t := (h, q.2.addr.toNat / dieSize)
    if c.hst.posted.contains t then c else { c with hst := { c.hst with posted := c.hst.posted ++ [t] } }) c

/-- The slots of a read of the register BAR or of the bank window: the first and how many (R48). -/
def slotSpan (off n : Nat) : Nat × Nat := (off / 8, if n = 4 then 1 else n / 8)

/-- The parts of a read that the link forwards: octets of the request, and the ring request that gives them; none gives zeros (R48, R64, R386).
The upper half of a register slot is read without side effects, and asks for none. -/
def readParts (f bar off n : Nat) (c : Chip) : List (Nat × Option (Nat × Pkt)) :=
  let who := linkWho c f
  let sp := slotSpan off n
  if bar = 2 then (cutRun 256 (targetEnd false) n (bar2At c f off) 0 n).map (fun q => (q.2, some (opRd, request who false (bar2At c f off + q.1) q.2 [] [] c)))
  else (List.range sp.2).map (fun i =>
    let o := 8 * (sp.1 + i)
    if bar = 0 then (8, if n = 4 ∧ off % 8 = 4 then none else some (opRd, request who true (pageAddr o) 4 [] [] c))
    else (8, if bankWindow o then some (opRd, request who true (o / 2) 4 [] [] c) else none))

/-- The probes before a read: one for each die with posted writes of the half, but for the read's own target (R387). -/
def readProbes (h : Nat) (own : List (Nat × Pkt)) (f : Nat) (c : Chip) : List (Nat × Pkt) :=
  let dies := (c.hst.posted.filter (fun t => t.1 == h)).map (fun t => t.2)
  (dies.filter (fun d => !own.any (fun q => !q.2.nonet && q.2.addr.toNat / dieSize == d))).map (fun d =>
    (opRd, request (linkWho c f) false (d * dieSize) 0 [] [] c))

/-- The data of a read from its answers: zeros for GONE, which is counted (R57). A slot gives 8 octets, with its poison. -/
def readData (bar : Nat) : List (Nat × Option (Nat × Pkt)) → List Srv → Chip → List (BitVec 9) × Chip
  | [], _, c => ([], c)
  | (n, none) :: ps, rs, c => let r := readData bar ps rs c; (List.replicate n 0 ++ r.1, r.2)
  | (n, some _) :: ps, rs, c =>
    let x := rs.headD (Srv.of stGone)
    let mine : List (BitVec 9) :=
      if goneStatus x.status then List.replicate n 0
      else if bar = 2 then x.data.zipIdx.map (fun d => BitVec.ofBool (x.mask.contains d.2) ++ d.1.setWidth 8)
      else (octetsOf 8 (wordOf x.data).toNat).map (fun o => BitVec.ofBool (!x.mask.isEmpty) ++ o)
    let r := readData bar ps rs.tail (if goneStatus x.status then badAccess c else c)
    (mine ++ r.1, r.2)

/-- The upper half of a slot, read without side effects (R48). -/
def upperHalf (f off : Nat) (c : Chip) : List (BitVec 9) × Chip :=
  let p := off / 0x1000
  let s := off % 0x1000 / 8
  if pageGone c p || streamShut p s c then (List.replicate 4 0, badAccess c)
  else
    let v : Word := if slotOpen (.host f) p s then slotValue p s c else 0
    ((octetsOf 4 (v >>> 32).toNat).map (fun o => o.setWidth 9), c)

/-- The end of a forwarded read (R267, R386): FAULT gives Completer Abort and ADDR Unsupported Request. -/
def readEnd (h f bar off n probes : Nat) (parts : List (Nat × Option (Nat × Pkt))) (rs : List Srv) (c : Chip) : Chip :=
  let c := { c with hst := { c.hst with posted := c.hst.posted.filter (fun t => t.1 != h) } }
  let rs := rs.drop probes
  match rs.find? (fun r => r.status != 0 && !goneStatus r.status) with
  | some r => failed f (if r.status = stAddr then 1 else 2) c
  | none =>
    if bar = 0 ∧ n = 4 ∧ off % 8 = 4 then
      let r := upperHalf f off c
      completions h off r.1 r.2
    else
      let r := readData bar parts rs c
      completions h off (if n = 4 ∧ bar ≠ 2 then (r.1.drop (off % 8)).take 4 else r.1) r.2

/-- What the link does itself with a request (R48, R383, R384, R386): nothing where it forwards it. -/
def linkServes (h : Nat) (r : HostReq) (c : Chip) : Option Chip :=
  let zero (c : Chip) : Chip := completions h r.off (List.replicate r.len 0) c
  match r.write with
  | some (data, poison) =>
    let n := data.length
    if r.bar = 0 then
      if poison then some (aerSet r.f 12 ((badAccess c).raise (pgPcie h) 4))
      else if (msixAt r.f r.off).isSome then some (msixWrite r.f r.off data c)
      else if !slotSizeOk r.off n then some (badAccess c)
      else if r.f = 3 then
        some ((List.range (n / 8)).foldl (fun c i =>
          if r.off + 8 * i < 0x1000 then dbgWrite false (r.off / 8 + i) (BitVec.ofNat 36 (le ((data.drop (8 * i)).take 8))) c else c) c)
      else if r.f = 1 then some c
      else none
    else if r.bar = 4 ∧ slotSizeOk r.off n = false then some (badAccess c)
    else if r.bar = 2 ∧ 4 * dieSize < bar2At c r.f r.off + n then some c
    else none
  | none =>
    let n := r.len
    let four := n == 4 && r.off % 4 == 0
    if r.bar = 0 ∧ (msixAt r.f r.off).isSome = true then
      let x := msixRead r.f r.off n c
      some (completions h r.off (x.1.map (fun o => o.setWidth 9)) x.2)
    else if r.bar ≠ 2 ∧ four = false ∧ slotSizeOk r.off n = false then some (zero (badAccess c))
    else if r.bar = 0 ∧ r.f = 3 then
      if four then
        if 0x1000 ≤ r.off then some (zero c)
        else
          let x := dbgRead false (r.off / 8) c
          -- the upper half has no side effect: TERM slots give the word they hold (R48, R508)
          if r.off % 8 = 4 then some (completions h r.off ((octetsOf 4 (x.1 >>> 32).toNat).map (fun o => o.setWidth 9)) c)
          else some (completions h r.off ((octetsOf 4 x.1.toNat).map (fun o => o.setWidth 9)) x.2)
      else
        let x := (List.range (n / 8)).foldl (fun (x : List (BitVec 9) × Chip) i =>
          let s := r.off / 8 + i
          let q := if s < 512 then dbgRead false s x.2 else (0, x.2)
          (x.1 ++ (octetsOf 8 q.1.toNat).map (fun o => o.setWidth 9), q.2)) ([], c)
        some (completions h r.off x.1 x.2)
    else if r.bar = 0 ∧ r.f = 1 then some (zero c)
    else if r.bar = 2 ∧ 4 * dieSize < bar2At c r.f r.off + n then some (failed r.f 1 c)
    else none

/-- One request of the half goes on: nothing is left of it, or what is left while its ring requests are under way (R386, R387). -/
def hostGo (h : Nat) (r : HostReq) (c : Chip) : Option HostReq × Chip :=
  -- a poisoned write has raised POISON when it was taken
  match (if r.xact = Xact.none then linkServes h r c else none) with
  | some c => (none, c)
  | none =>
    let quiet (c' : Chip) : Chip := if r.drop then { c' with out := c.out } else c'
    match r.write with
    | some (data, poison) =>
      let reqs := writeReqs r.f r.bar r.off data poison c
      let x := gather (linkWho c r.f) (fun _ => true) reqs r.xact c
      if x.1 then (none, writeEnd h r.bar reqs x.2.1.ans x.2.2) else (some { r with xact := x.2.1 }, x.2.2)
    | none =>
      let parts := readParts r.f r.bar r.off r.len c
      let own := parts.filterMap (fun p => p.2)
      let probes := readProbes h own r.f c
      let x := gather (linkWho c r.f) (fun st => st == 0 || goneStatus st) (probes ++ own) r.xact c
      if x.1 then (none, quiet (readEnd h r.f r.bar r.off r.len probes.length parts x.2.1.ans x.2.2)) else (some { r with xact := x.2.1 }, x.2.2)

/-- The requests of a half are forwarded in their order (R387). -/
def hostRun (h : Nat) : List HostReq → Chip → List HostReq × Chip
  | [], c => ([], c)
  | r :: rs, c =>
    match hostGo h r c with
    | (none, c) => hostRun h rs c
    | (some r, c) => (r :: rs, c)

def hostPump (h : Nat) (c : Chip) : Chip :=
  let r := hostRun h (SMap.get (fun _ => []) c.hst.reqs h) c
  { r.2 with hst := { r.2.hst with reqs := SMap.set (fun _ => []) r.2.hst.reqs h r.1 } }

/-- A request is taken behind those that the half still forwards. -/
def hostTake (h : Nat) (r : HostReq) (c : Chip) : Chip :=
  hostPump h { c with hst := { c.hst with reqs := SMap.set (fun _ => []) c.hst.reqs h (SMap.get (fun _ => []) c.hst.reqs h ++ [r]) } }

/-- HOST_MEM_WRITE (R386): a TLP longer than the Max Payload Size is malformed (R48, PCI Express). -/
def hostWrite (f bar off : Nat) (data : List Octet) (poison : Bool) (c : Chip) : Chip :=
  let n := data.length
  let h := pfHalf c f
  if !cfgReach c f || n == 0 then c
  else if maxPayload c f < n then aerSet f 18 c
  else if !memOn c f || !barThere f bar || decide (barSize c f bar < off + n) then aerSet f 20 c
  else
    let c := if poison ∧ bar ≠ 0 then aerSet f 12 (c.raise (pgPcie h) 4) else c
    hostTake h { f := f, bar := bar, off := off, write := some (data, poison), len := 0, xact := Xact.none, drop := false } c

/-- HOST_MEM_READ (R386). -/
def hostRead (f bar off n : Nat) (c : Chip) : Chip :=
  if !cfgReach c f || n == 0 then c
  else if !memOn c f || !barThere f bar || decide (barSize c f bar < off + n) then failed f 1 c
  else hostTake (pfHalf c f) { f := f, bar := bar, off := off, write := none, len := n, xact := Xact.none, drop := false } c

/-- MSIX_TABLE_ACCESS (R384): the link serves it itself. -/
def msixAccess (f off : Nat) (write : Option (List Octet)) (n : Nat) (c : Chip) : Chip :=
  if !cfgReach c f || !memOn c f || !(msixAt f off).isSome then c
  else match write with
    | some data => msixWrite f off data c
    | none =>
      let r := msixRead f off n c
      completions (pfHalf c f) off (r.1.map (fun o => o.setWidth 9)) r.2

/-- UNSUPPORTED_REQUEST (R382). -/
def unsupported (f : Nat) (c : Chip) : Chip := if cfgReach c f then failed f 1 c else c

end Sys2Proof.Machine
end

