-- ==== Sys2Proof/Machine/Operands.lean ====
section
/-!
DEFINITION. The operand forms of the commands: what runs while the device has power, the instruction that a core or a channel
finds at its PC, register slots that commands name, and the operations that belong to one command only.
-/
namespace Sys2Proof.Machine

/-- In OFF only the always-on domain has power, and nothing else acts (R412). -/
def Chip.live (f : Chip → Chip) (c : Chip) : Chip := if c.pwr.off then c else f c
/-- A command to a block that OFF leaves without power. -/
def State.live (f : Chip → Chip) (s : State) : Host.Outcome State Fault Refusal := s.run (Chip.live f)

/-- A command to the always-on domain: nothing acts while VDD_AON holds it in reset (R428). -/
def State.aon (f : Chip → Chip) (s : State) : Host.Outcome State Fault Refusal := s.run (fun c => if c.pwr.aonLost then c else f c)

/-- A scalar instruction of core k (R161 to R193). -/
def State.scalar (k : Fin 4) (t : Tag) (s : State) : Host.Outcome State Fault Refusal := s.live (coreStep k.val (some t))
/-- An array instruction that core k issues (R97 to R133, R186). -/
def State.array (k : Fin 4) (o : AOp) (s : State) : Host.Outcome State Fault Refusal := s.live (coreStep k.val (some (.arr o)))
/-- An instruction of a cell of tile t (R322 to R330); words of the stream output leave when they may (R348). -/
def State.cell (t : Fin 8) (i : Fin 144) (op port : Nat) (s : State) : Host.Outcome State Fault Refusal :=
  s.live (fun c => soutSend t.val (cellStep t.val i.val (op, port) c))
/-- An instruction of channel h of collie engine e (R367 to R375). -/
def State.collie (e : Fin 8) (h : Fin 16) (t : CTag) (s : State) : Host.Outcome State Fault Refusal :=
  s.live (collieStep e.val h.val t)
/-- A write of a register slot (R50, R53). -/
def State.write (who : Who) (p slot : Nat) (v : Word) (s : State) : Host.Outcome State Fault Refusal := s.run (pageWrite who p slot v)

/-! ### Background test of a bank (R285, R286) -/

/-- The pause of INTERVAL units of 1,024 TALLY ticks after the last restore has ended (R285). -/
def testDue (b : Nat) (c : Chip) : Bool :=
  match SMap.get (fun _ => none) c.mem.btDone b with
  | none => true
  | some t => decide (1024 * c.fld (pgBank b) 16 0 24 ≤ (c.tally - t).toNat)

/-- BTEST_REGION: the next region is tested, whole in this command, so BTRUN never reads 1 (log entry 14); `fails` lists the word of the region and the stored bit that the march reads wrongly. -/
def testRegion (b : Nat) (fails : List (Nat × Nat)) (c : Chip) : Chip :=
  let p := pgBank b
  if !c.flag p 16 35 || !bankOn c b || bankClearing c b || bankWiping c b || !testDue b c then c
  else
    let r := c.fld p 17 0 14
    let c := (List.range 64).foldl (fun c i =>
      let a := bankBase b + 4 * (64 * r + i)
      c.bankParity b a 2 (c.badNonets a)) c
    let c := { c with mem := { c.mem with btDone := SMap.set (fun _ => none) c.mem.btDone b (some c.tally) } }
    if fails.isEmpty then
      if bankWords b ≤ 64 * (r + 1) then (c.setFld p 17 0 14 0).raise p 2 else c.setFld p 17 0 14 (r + 1)
    else
      let c := c.logAll p 18 true (fails.map (fun x => withField (withField 0 28 6 x.2) 0 20 (64 * r + x.1)))
      (c.setFlag p 16 35 false).raise p 1

/-! ### HBM controllers (R270, R275 to R277) -/

/-- HBM_REQUEST: one request is performed, after the requester's queued writes of its blocks (R270); what a read returns is kept at the port.
A write to a die that failed training is not counted (R276). -/
def hbmRequest (die : Nat) (q : HbmReq) (c : Chip) : Chip :=
  let port (r : PortRes) (c : Chip) : Chip := { c with mem := { c.mem with ports := c.mem.ports ++ [r] } }
  let trained := [0, 1].all (fun m => c.flag (pgHbmc die m) 3 0)
  match q with
  | .queued p ch => ctuHbmWrite die p ch c
  | .read req o n sev =>
    if dieSize < o + n || (decide (req < 9) && queuedBlock c die req o n) then c
    else if !hbmUp c die then port (.gone die) c
    else
      let r := c.hbmRead die o n (if req < 9 then 0 else 1) req sev
      port (.hbm die r.1) r.2
  | .write req o data =>
    if dieSize < o + data.length || (decide (req < 9) && queuedBlock c die req o data.length) || !trained then c
    else if !hbmUp c die then c.count (pgHbmc die (stackOf o)) 20 1
    else c.hbmWrite die o req data

/-- STACK_TEMPERATURE_REPORT (R275, Table 9-2). -/
def stackTemp (die m : Nat) (temp : BitVec 8) (hot : Bool) (c : Chip) : Chip :=
  let p := pgHbmc die m
  let c := (c.setFld p 3 4 8 temp.toNat).setFlag p 3 3 hot
  if 95 ≤ temp.toNat then c.raise p 3 else c

/-! ### Commands of a microsequencer that wait in CTRL.CMD (R230) -/

/-- SAVE (4) and RESTORE (5): a write of CMD, or the command that waits there goes on. -/
def mseqService (who : Who) (k cmd : Nat) (c : Chip) : Chip :=
  if c.fld (pgMseq k) 2 0 3 = cmd then (if c.halted k then c else mseqCommand k cmd c)
  else pageWrite who (pgMseq k) 2 (BitVec.ofNat 36 cmd) c

/-! ### Windows of collie channels (R361) -/

def windowNonet (e h : Nat) : Nat := 0o200000000 + pgCollie e * 0o4000 + 4 * (128 + 8 * h)

/-- A request that a command makes as an initiator: it is injected with a free tag, and its answer goes to the initiator's stop. -/
def commandRequest (opc : Nat) (k : Pkt) (c : Chip) : Chip :=
  match freeTag k c with
  | none => c
  | some t => ringServe opc { k with tag := t } [] c

/-- COLLIE_WINDOW_WRITE: one packet of words from an initiator. -/
def windowPacket (who : Who) (e h : Nat) (ws : List Word) (c : Chip) : Chip :=
  commandRequest opWr (request who true (windowNonet e h) (4 * ws.length) (ws.flatMap nonetsOf) [] c) c

/-- COLLIE_WINDOW_READ: the word goes to the initiator's stop as a DATA response; as a peek where Gander asks (R510). -/
def windowFetch (who : Who) (e h : Nat) (c : Chip) : Chip :=
  commandRequest opRd (request who true (windowNonet e h) 4 [] [] c) c

/-! ### Domains (R424) -/

/-- A write of HUB.PDOM that changes one bit. -/
def pdomBit (who : Who) (bit : Nat) (v : Bool) (c : Chip) : Chip :=
  pageWrite who pgHub 24 (withField (c.reg pgHub 24) bit 1 v.toNat) c

/-- ORDERING_PROBE (R308): an RD of length 0. -/
def probe (k : Pkt) (c : Chip) : Chip := if k.len = 0 then ringServe opRd k [] c else c

/-- What waits on the rings goes on: requests at their targets, inbound host requests, the running debug command, coprocessor requests. -/
def pump (c : Chip) : Chip := ganderPump (hostPump 1 (hostPump 0 (copLost (retryAll c))))

/-- TERM_READ (R508): a read of TERMk over a route. -/
def termFetch (jtag : Bool) (k : Nat) (c : Chip) : Chip :=
  let r := dbgRead jtag (12 + k) c
  if jtag then { r.2 with dbg := { r.2.dbg with jdata := r.1, jdone := true } }
  else completions (pfHalf r.2 3) (8 * (12 + k)) ((octetsOf 8 r.1.toNat).map (fun o => o.setWidth 9)) r.2

/-! ### Time (R205, R348, R430, log entry 2) -/

/-- One TALLY tick with no command: TALLY advances, every 1,024 ticks the watchdogs count, the clocks of tiles pass the cycles in
which no cell starts, and stream outputs leave. -/
def tick (c : Chip) : Chip :=
  let t := c.tally + 1
  let c := { c with tally := t }
  let c := if t.toNat % 1024 = 0 then cores4.foldl (fun c k => wdgUnit k c) c else c
  pump (soutAll (tilesIdle c))

end Sys2Proof.Machine
end

