-- ==== Sys2Proof/Machine/ArrayCommands.lean ====
section
/-!
DEFINITION. The meanings of the commands of array instructions, as a core issues them.
-/
namespace Sys2Proof.Machine

/-- LOGIC (R111). Array LOGIC applies truth table G to A, B and r for n planes. -/
def execArrLogic (k : Fin 4) (s : State) : Host.Outcome State Fault Refusal := s.array k .logic

/-- RLOG (R112). Array RLOG performs one register beat n times. -/
def execArrRlog (k : Fin 4) (s : State) : Host.Outcome State Fault Refusal := s.array k .rlog

/-- ADD (R113). Array serial add of A and B into D. -/
def execArrAdd (k : Fin 4) (s : State) : Host.Outcome State Fault Refusal := s.array k .add

/-- SUB (R113). Array serial subtract of B from A into D. -/
def execArrSub (k : Fin 4) (s : State) : Host.Outcome State Fault Refusal := s.array k .sub

/-- ADDC (R113). Array serial add with carry in from C. -/
def execArrAddc (k : Fin 4) (s : State) : Host.Outcome State Fault Refusal := s.array k .addc

/-- NEG (R113). Array serial negate of A into D. -/
def execArrNeg (k : Fin 4) (s : State) : Host.Outcome State Fault Refusal := s.array k .neg

/-- ADDS (R113). Array serial add of the scalar operand to A. -/
def execArrAdds (k : Fin 4) (s : State) : Host.Outcome State Fault Refusal := s.array k .adds

/-- SUBS (R113). Array serial subtract of the scalar operand from A. -/
def execArrSubs (k : Fin 4) (s : State) : Host.Outcome State Fault Refusal := s.array k .subs

/-- SHL (R115). Array serial shift left of A by s. -/
def execArrShl (k : Fin 4) (s : State) : Host.Outcome State Fault Refusal := s.array k .shl

/-- SHR (R115). Array serial shift right of A by s, with fill. -/
def execArrShr (k : Fin 4) (s : State) : Host.Outcome State Fault Refusal := s.array k .shr

/-- ROT (R115). Array serial rotate left of A by s mod n. -/
def execArrRot (k : Fin 4) (s : State) : Host.Outcome State Fault Refusal := s.array k .rot

/-- MUL (R116). Array serial full multiply into 2n planes. -/
def execArrMul (k : Fin 4) (s : State) : Host.Outcome State Fault Refusal := s.array k .mul

/-- DIV (R116). Array serial divide giving quotient, remainder, DZ and V, and sampling BELL. -/
def execArrDiv (k : Fin 4) (s : State) : Host.Outcome State Fault Refusal := s.array k .div

/-- GADD (R118). Array gang word add, optionally linked. -/
def execArrGadd (k : Fin 4) (s : State) : Host.Outcome State Fault Refusal := s.array k .gadd

/-- GSUB (R118). Array gang word subtract. -/
def execArrGsub (k : Fin 4) (s : State) : Host.Outcome State Fault Refusal := s.array k .gsub

/-- GADDS (R118). Array gang add of the scalar word. -/
def execArrGadds (k : Fin 4) (s : State) : Host.Outcome State Fault Refusal := s.array k .gadds

/-- GNEG (R118). Array gang word negate. -/
def execArrGneg (k : Fin 4) (s : State) : Host.Outcome State Fault Refusal := s.array k .gneg

/-- GSHL (R119). Array gang word shift left. -/
def execArrGshl (k : Fin 4) (s : State) : Host.Outcome State Fault Refusal := s.array k .gshl

/-- GSHR (R119). Array gang word shift right. -/
def execArrGshr (k : Fin 4) (s : State) : Host.Outcome State Fault Refusal := s.array k .gshr

/-- GROT (R119). Array gang word rotate left. -/
def execArrGrot (k : Fin 4) (s : State) : Host.Outcome State Fault Refusal := s.array k .grot

/-- GMUL (R120). Array gang 72-bit word products. -/
def execArrGmul (k : Fin 4) (s : State) : Host.Outcome State Fault Refusal := s.array k .gmul

/-- GDIV (R120). Array gang word quotient and remainder, with DZ and V ORed per gang. -/
def execArrGdiv (k : Fin 4) (s : State) : Host.Outcome State Fault Refusal := s.array k .gdiv

/-- CMP (R122). Array serial compare of A with B into C and F. -/
def execArrCmp (k : Fin 4) (s : State) : Host.Outcome State Fault Refusal := s.array k .cmp

/-- CMPS (R122). Array serial compare of A with the scalar operand. -/
def execArrCmps (k : Fin 4) (s : State) : Host.Outcome State Fault Refusal := s.array k .cmps

/-- GCMP (R123). Array gang compare of 36n-bit integers into F. -/
def execArrGcmp (k : Fin 4) (s : State) : Host.Outcome State Fault Refusal := s.array k .gcmp

/-- GCMPS (R123). Array gang compare of each word with the scalar word. -/
def execArrGcmps (k : Fin 4) (s : State) : Host.Outcome State Fault Refusal := s.array k .gcmps

/-- MAX (R124). Array search keeping the responders that hold the largest A. -/
def execArrMax (k : Fin 4) (s : State) : Host.Outcome State Fault Refusal := s.array k .max

/-- MIN (R124). Array search keeping the responders that hold the smallest A. -/
def execArrMin (k : Fin 4) (s : State) : Host.Outcome State Fault Refusal := s.array k .min

/-- MSET (R125). Sets M to 1 in all lambs. -/
def execArrMset (k : Fin 4) (s : State) : Host.Outcome State Fault Refusal := s.array k .mset

/-- MLD (R125). Loads M from plane A in all lambs. -/
def execArrMld (k : Fin 4) (s : State) : Host.Outcome State Fault Refusal := s.array k .mld

/-- MST (R125). Stores M to plane D through a working plane. -/
def execArrMst (k : Fin 4) (s : State) : Host.Outcome State Fault Refusal := s.array k .mst

/-- MAND (R125). Narrows M by F. -/
def execArrMand (k : Fin 4) (s : State) : Host.Outcome State Fault Refusal := s.array k .mand

/-- MPUSH (R126). Pushes a mask level and narrows M by F. -/
def execArrMpush (k : Fin 4) (s : State) : Host.Outcome State Fault Refusal := s.array k .mpush

/-- MPOP (R126). Restores the outer mask and pops a level. -/
def execArrMpop (k : Fin 4) (s : State) : Host.Outcome State Fault Refusal := s.array k .mpop

/-- MELSE (R126). Sets M to outer and not inner of the top level. -/
def execArrMelse (k : Fin 4) (s : State) : Host.Outcome State Fault Refusal := s.array k .melse

/-- MOVE (R127). Array move of A from the neighbour or leap lamb that SRC names. -/
def execArrMove (k : Fin 4) (s : State) : Host.Outcome State Fault Refusal := s.array k .move

/-- ROWB (R128). Array row broadcast from column s. -/
def execArrRowb (k : Fin 4) (s : State) : Host.Outcome State Fault Refusal := s.array k .rowb

/-- COLB (R128). Array column broadcast from row s. -/
def execArrColb (k : Fin 4) (s : State) : Host.Outcome State Fault Refusal := s.array k .colb

/-- BCAST (R129). Writes the bits of s to the serial field D. -/
def execArrBcast (k : Fin 4) (s : State) : Host.Outcome State Fault Refusal := s.array k .bcast

/-- GBCAST (R129). Writes the word s to every gang word of D. -/
def execArrGbcast (k : Fin 4) (s : State) : Host.Outcome State Fault Refusal := s.array k .gbcast

/-- FADD (R121). Array floating-point add. -/
def execArrFadd (k : Fin 4) (s : State) : Host.Outcome State Fault Refusal := s.array k .fadd

/-- FSUB (R121). Array floating-point subtract. -/
def execArrFsub (k : Fin 4) (s : State) : Host.Outcome State Fault Refusal := s.array k .fsub

/-- FMUL (R121). Array floating-point multiply. -/
def execArrFmul (k : Fin 4) (s : State) : Host.Outcome State Fault Refusal := s.array k .fmul

/-- FDIV (R121). Array floating-point divide. -/
def execArrFdiv (k : Fin 4) (s : State) : Host.Outcome State Fault Refusal := s.array k .fdiv

/-- FMA (R157). Array fused multiply-add into D. -/
def execArrFma (k : Fin 4) (s : State) : Host.Outcome State Fault Refusal := s.array k .fma

/-- FCMP (R158). Array floating-point compare into F. -/
def execArrFcmp (k : Fin 4) (s : State) : Host.Outcome State Fault Refusal := s.array k .fcmp

/-- BELL (R130). One sampling beat updates BELL. -/
def execArrBell (k : Fin 4) (s : State) : Host.Outcome State Fault Refusal := s.array k .bell

/-- COUNT (R130). One sampling beat updates COUNT and BELL. -/
def execArrCount (k : Fin 4) (s : State) : Host.Outcome State Fault Refusal := s.array k .count

/-- FIRST (R130). One sampling beat updates FIRST and BELL. -/
def execArrFirst (k : Fin 4) (s : State) : Host.Outcome State Fault Refusal := s.array k .first

/-- TWIST (R133). Converts between the serial and gang layouts within each gang. -/
def execArrTwist (k : Fin 4) (s : State) : Host.Outcome State Fault Refusal := s.array k .twist

/-- PFENCE (R109). Waits until no reservation overlaps planes A to B. -/
def execArrPfence (k : Fin 4) (s : State) : Host.Outcome State Fault Refusal := s.array k .pfence

/-- PRES (R108). Starts a corner-turn channel at a fixed point of the array stream. -/
def execArrPres (k : Fin 4) (s : State) : Host.Outcome State Fault Refusal := s.array k .pres

end Sys2Proof.Machine
end

