-- ==== Sys2Proof/Machine/Beats.lean ====
section
/-!
DEFINITION. The meanings of the commands of beats, folds and plane ports.
-/
namespace Sys2Proof.Machine

/-- BEAT_FRAME (R222). A fold receives a beat-word frame over the die bridge and checks it. -/
def execBeatFrame (f : Fin 960) (err : BitVec 168) (s : State) : Host.Outcome State Fault Refusal := s.live (beatFrame f.val err)

/-- BEAT (R87). A fold executes one beat once it holds the beat word and every value from other islands that the beat reads.
-/
def execBeat (k : Fin 4) (s : State) : Host.Outcome State Fault Refusal := s.live (beatExec k.val)

/-- FOLD_STALL (R91). A fold that waits 1,048,576 cycles for a beat value raises STALL and causes a control machine check. -/
def execFoldStall (f : Fin 960) (s : State) : Host.Outcome State Fault Refusal := s.live (foldStall f.val)

/-- PORT_ACCESS (R85). A fold performs one plane-port row-slice read or write at a beat boundary or in an idle cycle. -/
def execPortAccess (die : Fin 4) (p : Fin 9) (ch : Fin 16) (s : State) : Host.Outcome State Fault Refusal := s.live (portAccess die.val p.val ch.val)

/-- PLANE_CLEAR_DONE (R83). Every active fold ends the clearing of its planes, and the flock geometry is reported. -/
def execPlaneClearDone (s : State) : Host.Outcome State Fault Refusal := s.live planeClearDone

/-- REDUCTION_DELIVER (R40). A BELL, COUNT or FIRST result reaches the bellwether register. -/
def execReductionDeliver (k : Fin 4) (s : State) : Host.Outcome State Fault Refusal := s.live (reductionDeliver k.val)

end Sys2Proof.Machine
end

