-- ==== Sys2Proof/Machine/CollieCommands.lean ====
section
/-!
DEFINITION. The meanings of the commands of collie engines.
-/
namespace Sys2Proof.Machine

/-- COLLIE_DOMAIN_OFF (R424). COLOFF := 1 closes the engine and turns its domain off. -/
def execCollieDomainOff (who : Who) (e : Fin 8) (s : State) : Host.Outcome State Fault Refusal := s.run (pdomBit who e.val true)

/-- COLLIE_DOMAIN_ON (R424). COLOFF := 0 powers the engine with an engine reset. -/
def execCollieDomainOn (who : Who) (e : Fin 8) (s : State) : Host.Outcome State Fault Refusal := s.run (pdomBit who e.val false)

/-- COLLIE_CHSTART (R360). A write of CHSTART starts collie channels. -/
def execCollieChstart (who : Who) (e : Fin 8) (mask : BitVec 16) (s : State) : Host.Outcome State Fault Refusal :=
  s.write who (pgCollie e.val) 17 (mask.setWidth 36)

/-- COLLIE_ENTRY_LOADED (R359). A read channel entry is checked, and the channel runs or ends. -/
def execCollieEntryLoaded (e : Fin 8) (h : Fin 16) (s : State) : Host.Outcome State Fault Refusal := s.live (entryLoaded e.val h.val)

/-- COLLIE_STEP (R365). At a grid boundary the shift unit runs one step, or stalls. -/
def execCollieStep (e : Fin 8) (h : Fin 16) (ext : BitVec 9) (s : State) : Host.Outcome State Fault Refusal := s.live (stepShift e.val h.val ext)

/-- WAIT_SATISFIED (R371). A channel's pin, flag or event wait is met, and the stamp is recorded. -/
def execWaitSatisfied (e : Fin 8) (h : Fin 16) (ext : BitVec 9) (s : State) : Host.Outcome State Fault Refusal :=
  s.live (waitSatisfied e.val h.val ext)

/-- AT_TIME_REACHED (R370). The timed PIN or shift takes effect at the PCLK edge that reaches T. -/
def execAtTimeReached (e : Fin 8) (h : Fin 16) (s : State) : Host.Outcome State Fault Refusal := s.live (atReached e.val h.val)

/-- TCMP_EVENT (R372). TALLY reaches TCMPi and sets event i of the channels. -/
def execTcmpEvent (e : Fin 8) (i : Fin 4) (s : State) : Host.Outcome State Fault Refusal := s.live (tcmpEvent e.val i.val)

/-- COLLIE_DBELL (R372). A DBELL write sets event bits 4 to 11 of a channel. -/
def execCollieDbell (who : Who) (e : Fin 8) (ch : Fin 16) (bits : BitVec 8) (s : State) : Host.Outcome State Fault Refusal :=
  s.write who (pgCollie e.val) 24 (BitVec.ofNat 36 (16 * bits.toNat + ch.val))

/-- COLLIE_SYNC (R372). A SYNC write sets event 12 of every channel of every engine. -/
def execCollieSync (who : Who) (e : Fin 8) (v : Word) (s : State) : Host.Outcome State Fault Refusal := s.write who (pgCollie e.val) 27 v

/-- COLLIE_SWAP (R374). A normal SWAP write makes a half change pending. -/
def execCollieSwap (who : Who) (e : Fin 8) (ch : Fin 16) (pc : BitVec 11) (s : State) : Host.Outcome State Fault Refusal :=
  s.write who (pgCollie e.val) 19 (BitVec.ofNat 36 (16 * pc.toNat + ch.val))

/-- COLLIE_FORCED_SWAP (R374). A forced SWAP abandons shifts and changes half in the next cycle. -/
def execCollieForcedSwap (who : Who) (e : Fin 8) (ch : Fin 16) (pc : BitVec 11) (s : State) : Host.Outcome State Fault Refusal :=
  s.write who (pgCollie e.val) 19 (BitVec.ofNat 36 (2 ^ 15 + 16 * pc.toNat + ch.val))

/-- SWAP_TAKE_EFFECT (R374). A pending normal swap takes effect once the shift unit is idle. -/
def execSwapTakeEffect (e : Fin 8) (h : Fin 16) (s : State) : Host.Outcome State Fault Refusal := s.live (swapEffect e.val h.val)

/-- COLLIE_CHSTOP (R375). CHSTOP ends a channel with STOPPED. -/
def execCollieChstop (who : Who) (e : Fin 8) (mask : BitVec 16) (s : State) : Host.Outcome State Fault Refusal :=
  s.write who (pgCollie e.val) 18 (mask.setWidth 36)

/-- COLLIE_ARM (R377). ARM loads the start and restart masks for TSTART. -/
def execCollieArm (who : Who) (e : Fin 8) (v : Word) (s : State) : Host.Outcome State Fault Refusal := s.write who (pgCollie e.val) 26 v

/-- SYNC_START (R377). At the TSTART edge, armed channels start and restart their step grids. -/
def execSyncStart (e : Fin 8) (s : State) : Host.Outcome State Fault Refusal := s.live (syncStart e.val)

/-- PSDATA_WRITE (R373). Stores an instruction pair in the program store and advances PSADDR. -/
def execPsdataWrite (who : Who) (e : Fin 8) (v : Word) (s : State) : Host.Outcome State Fault Refusal := s.write who (pgCollie e.val) 21 v

/-- QFLUSH (R362). CHCMD empties both queues of an IDLE channel. -/
def execQflush (who : Who) (e : Fin 8) (ch : Fin 16) (s : State) : Host.Outcome State Fault Refusal :=
  s.write who (pgCollie e.val) 43 (BitVec.ofNat 36 (2 ^ 16 + ch.val))

/-- COLLIE_WINDOW_WRITE (R361). A window write appends words to a channel's output queue. -/
def execCollieWindowWrite (who : Who) (e : Fin 8) (h : Fin 16) (ws : List Word) (s : State) : Host.Outcome State Fault Refusal :=
  s.live (windowPacket who e.val h.val ws)

/-- COLLIE_WINDOW_READ (R361). A window read pops the input queue or sets UNDER. -/
def execCollieWindowRead (who : Who) (e : Fin 8) (h : Fin 16) (s : State) : Host.Outcome State Fault Refusal := s.live (windowFetch who e.val h.val)

end Sys2Proof.Machine
end

