-- ==== Sys2Proof/Machine/CollieInstructions.lean ====
section
/-!
DEFINITION. The meanings of the commands of instructions of collie channels.
-/
namespace Sys2Proof.Machine

/-- COLLIE_SHO (R364). Hands n output steps to the shift unit. -/
def execCollieSho (e : Fin 8) (h : Fin 16) (s : State) : Host.Outcome State Fault Refusal := s.collie e h .sho

/-- COLLIE_SHI (R364). Hands n input steps to the shift unit. -/
def execCollieShi (e : Fin 8) (h : Fin 16) (s : State) : Host.Outcome State Fault Refusal := s.collie e h .shi

/-- COLLIE_SHB (R364). Hands n output and input steps to the shift unit. -/
def execCollieShb (e : Fin 8) (h : Fin 16) (s : State) : Host.Outcome State Fault Refusal := s.collie e h .shb

/-- COLLIE_PIN (R369). Drives, releases or inverts the masked pins. -/
def execColliePin (e : Fin 8) (h : Fin 16) (s : State) : Host.Outcome State Fault Refusal := s.collie e h .pin

/-- COLLIE_WAITP (R371). Waits for a pin condition. -/
def execCollieWaitp (e : Fin 8) (h : Fin 16) (s : State) : Host.Outcome State Fault Refusal := s.collie e h .waitp

/-- COLLIE_WAITF (R367). Waits for a flag value. -/
def execCollieWaitf (e : Fin 8) (h : Fin 16) (s : State) : Host.Outcome State Fault Refusal := s.collie e h .waitf

/-- COLLIE_WAITE (R367). Waits for a channel event bit. -/
def execCollieWaite (e : Fin 8) (h : Fin 16) (s : State) : Host.Outcome State Fault Refusal := s.collie e h .waite

/-- COLLIE_SETF (R367). Clears, sets or inverts a flag. -/
def execCollieSetf (e : Fin 8) (h : Fin 16) (s : State) : Host.Outcome State Fault Refusal := s.collie e h .setf

/-- COLLIE_AT (R370). Times the next pin or shift instruction at G(g). -/
def execCollieAt (e : Fin 8) (h : Fin 16) (s : State) : Host.Outcome State Fault Refusal := s.collie e h .at

/-- COLLIE_LDI (R367). Loads an immediate into G(g). -/
def execCollieLdi (e : Fin 8) (h : Fin 16) (s : State) : Host.Outcome State Fault Refusal := s.collie e h .ldi

/-- COLLIE_ADDI (R367). Adds a signed immediate to G(g). -/
def execCollieAddi (e : Fin 8) (h : Fin 16) (s : State) : Host.Outcome State Fault Refusal := s.collie e h .addi

/-- COLLIE_JMP (R368). Jumps on a condition. -/
def execCollieJmp (e : Fin 8) (h : Fin 16) (s : State) : Host.Outcome State Fault Refusal := s.collie e h .jmp

/-- COLLIE_LOOP (R368). Runs a body count times. -/
def execCollieLoop (e : Fin 8) (h : Fin 16) (s : State) : Host.Outcome State Fault Refusal := s.collie e h .loop

/-- COLLIE_LOOPG (R368). Runs a body G(g) times. -/
def execCollieLoopg (e : Fin 8) (h : Fin 16) (s : State) : Host.Outcome State Fault Refusal := s.collie e h .loopg

/-- COLLIE_PULL (R367). Pops the output queue into G(gd). -/
def execColliePull (e : Fin 8) (h : Fin 16) (s : State) : Host.Outcome State Fault Refusal := s.collie e h .pull

/-- COLLIE_PUSH (R367). Pushes G(gs) into the input queue. -/
def execColliePush (e : Fin 8) (h : Fin 16) (s : State) : Host.Outcome State Fault Refusal := s.collie e h .push

/-- COLLIE_MOV (R367). Copies a register. -/
def execCollieMov (e : Fin 8) (h : Fin 16) (s : State) : Host.Outcome State Fault Refusal := s.collie e h .mov

/-- COLLIE_ADD (R367). Adds registers. -/
def execCollieAdd (e : Fin 8) (h : Fin 16) (s : State) : Host.Outcome State Fault Refusal := s.collie e h .add

/-- COLLIE_SUB (R367). Subtracts registers. -/
def execCollieSub (e : Fin 8) (h : Fin 16) (s : State) : Host.Outcome State Fault Refusal := s.collie e h .sub

/-- COLLIE_AND (R367). ANDs registers. -/
def execCollieAnd (e : Fin 8) (h : Fin 16) (s : State) : Host.Outcome State Fault Refusal := s.collie e h .and

/-- COLLIE_OR (R367). ORs registers. -/
def execCollieOr (e : Fin 8) (h : Fin 16) (s : State) : Host.Outcome State Fault Refusal := s.collie e h .or

/-- COLLIE_XOR (R367). XORs registers. -/
def execCollieXor (e : Fin 8) (h : Fin 16) (s : State) : Host.Outcome State Fault Refusal := s.collie e h .xor

/-- COLLIE_NOT (R367). Inverts a register. -/
def execCollieNot (e : Fin 8) (h : Fin 16) (s : State) : Host.Outcome State Fault Refusal := s.collie e h .not

/-- COLLIE_STAMPW (R371). Copies the wait stamp into a register pair. -/
def execCollieStampw (e : Fin 8) (h : Fin 16) (s : State) : Host.Outcome State Fault Refusal := s.collie e h .stampw

/-- COLLIE_STAMPA (R371). Copies the action stamp into a register pair. -/
def execCollieStampa (e : Fin 8) (h : Fin 16) (s : State) : Host.Outcome State Fault Refusal := s.collie e h .stampa

/-- COLLIE_TAKE (R365). Takes the bits assembled so far and clears DES. -/
def execCollieTake (e : Fin 8) (h : Fin 16) (s : State) : Host.Outcome State Fault Refusal := s.collie e h .take

/-- COLLIE_SIG (R367). Sets CHSTAT.SIG and raises SIG. -/
def execCollieSig (e : Fin 8) (h : Fin 16) (s : State) : Host.Outcome State Fault Refusal := s.collie e h .sig

/-- COLLIE_END (R375). Completes the channel with OK once the shift unit is idle. -/
def execCollieEnd (e : Fin 8) (h : Fin 16) (s : State) : Host.Outcome State Fault Refusal := s.collie e h .finish

/-- COLLIE_TIME (R367). Reads TALLY[35:0] into G(gd). -/
def execCollieTime (e : Fin 8) (h : Fin 16) (s : State) : Host.Outcome State Fault Refusal := s.collie e h .time

/-- COLLIE_FLUSHO (R367). Clears SER and SERN. -/
def execCollieFlusho (e : Fin 8) (h : Fin 16) (s : State) : Host.Outcome State Fault Refusal := s.collie e h .flusho

/-- COLLIE_CMPU (R367). Unsigned compare of two registers into G(gd). -/
def execCollieCmpu (e : Fin 8) (h : Fin 16) (s : State) : Host.Outcome State Fault Refusal := s.collie e h .cmpu

/-- COLLIE_RESERVED_INSTRUCTION (R367). A collie channel fetches a reserved opcode or OPR sub-operation and ends with code
ILLEGAL. -/
def execCollieReserved (e : Fin 8) (h : Fin 16) (s : State) : Host.Outcome State Fault Refusal := s.collie e h .reserved

end Sys2Proof.Machine
end

