-- ==== Sys2Proof/Machine/DmaCommands.lean ====
section
/-!
DEFINITION. The meanings of the commands of the DMA engines.
-/
namespace Sys2Proof.Machine

/-- DMA_DESCRIPTOR_START (R389). An enabled engine with HEAD not equal to TAIL reads and checks the next descriptor. -/
def execDmaDescriptorStart (h : Fin 2) (e : Fin 4) (s : State) : Host.Outcome State Fault Refusal := s.live (dmaStart h.val e.val)

/-- DMA_DESCRIPTOR_COMPLETE (R393). A descriptor completes: probes, status write, HEAD advance, DONE or ERR. -/
def execDmaDescriptorComplete (h : Fin 2) (e : Fin 4) (host : List (BitVec 9)) (hostErr : Bool) (landed : List Bool) (s : State) : Host.Outcome State Fault Refusal :=
  s.live (dmaComplete h.val e.val host hostErr landed)

/-- DMA_MARKER_POLL (R392). Every 64 ring cycles the engine re-reads its marker word. -/
def execDmaMarkerPoll (h : Fin 2) (e : Fin 4) (s : State) : Host.Outcome State Fault Refusal := s.live (dmaPoll h.val e.val)

/-- DMA_HOST_TIMEOUT (R391). A host read with no completion in 50 ms ends the descriptor with HOSTERR. -/
def execDmaHostTimeout (h : Fin 2) (e : Fin 4) (host : List (BitVec 9)) (landed : List Bool) (s : State) : Host.Outcome State Fault Refusal :=
  s.live (dmaHostTimeout h.val e.val host landed)

/-- DMA_ENABLE (R389). DQCFG.EN := 1 starts or resumes the engine. -/
def execDmaEnable (who : Who) (h : Fin 2) (e : Fin 4) (s : State) : Host.Outcome State Fault Refusal :=
  s.run (fun c => pageWrite who (pgPcie h.val) (17 + 8 * e.val) (withField (c.reg (pgPcie h.val) (17 + 8 * e.val)) 35 1 1) c)

/-- DMA_DISABLE (R389). DQCFG.EN := 0 ends a running descriptor with STOPPED. -/
def execDmaDisable (who : Who) (h : Fin 2) (e : Fin 4) (host : List (BitVec 9)) (landed : List Bool) (s : State) : Host.Outcome State Fault Refusal :=
  s.live (dmaDisable h.val e.val who host landed)

/-- DQBASE_WRITE (R389). An accepted DQBASE write sets DQHEAD and DQTAIL to zero. -/
def execDqbaseWrite (who : Who) (h : Fin 2) (e : Fin 4) (v : Word) (s : State) : Host.Outcome State Fault Refusal :=
  s.write who (pgPcie h.val) (16 + 8 * e.val) v

/-- DQCFG_SIZE_WRITE (R389). An accepted SIZE write sets DQHEAD and DQTAIL to zero. -/
def execDqcfgSizeWrite (who : Who) (h : Fin 2) (e : Fin 4) (size : BitVec 12) (s : State) : Host.Outcome State Fault Refusal :=
  s.run (fun c => pageWrite who (pgPcie h.val) (17 + 8 * e.val) (withField (c.reg (pgPcie h.val) (17 + 8 * e.val)) 0 12 size.toNat) c)

/-- DQTAIL_WRITE (R389). Software advances DQTAIL to offer descriptors. -/
def execDqtailWrite (who : Who) (h : Fin 2) (e : Fin 4) (tail : BitVec 12) (s : State) : Host.Outcome State Fault Refusal :=
  s.write who (pgPcie h.val) (18 + 8 * e.val) (tail.setWidth 36)

end Sys2Proof.Machine
end

