-- ==== Sys2Proof/Machine/EventCommands.lean ====
section
/-!
DEFINITION. The meanings of the commands of the event hub.
-/
namespace Sys2Proof.Machine

/-- EVH_RESCAN (R395). CTRL.RESCAN starts a reread of every page's pending events. -/
def execEvhRescan (who : Who) (s : State) : Host.Outcome State Fault Refusal := s.write who pgEvh 2 1

/-- EVH_RESCAN_DONE (R395). The rescan ends and raises RESCANNED. -/
def execEvhRescanDone (s : State) : Host.Outcome State Fault Refusal := s.live (fun c => rescanDone (pageGone c) c)

/-- EVH_VACK (R397). A VACK write resends, or marks pending, a vector whose OR is 1. -/
def execEvhVack (who : Who) (vec : BitVec 8) (s : State) : Host.Outcome State Fault Refusal := s.write who pgEvh 70 (vec.setWidth 36)

/-- MSIX_PENDING_SEND (R397). On unmask, a pending vector sends its message or clears PBA. -/
def execMsixPendingSend (vec : BitVec 8) (s : State) : Host.Outcome State Fault Refusal := s.live (sendPending vec.toNat)

/-- EVH_TIMER_ARM (R394). A write of TMRi clears the level and arms the timer. -/
def execEvhTimerArm (who : Who) (i : Fin 4) (v : Word) (s : State) : Host.Outcome State Fault Refusal := s.write who pgEvh (66 + i.val) v

/-- EVH_TIMER_EXPIRY (R394). TALLY reaches TMRi, so the level is set and the timer disarms. -/
def execEvhTimerExpiry (i : Fin 4) (s : State) : Host.Outcome State Fault Refusal := s.live (timerExpiry i.val)

/-- RTDATA_WRITE (R396). Writes the route entry of RTADDR and advances RTADDR. -/
def execRtdataWrite (who : Who) (v : Word) (s : State) : Host.Outcome State Fault Refusal := s.write who pgEvh 17 v

end Sys2Proof.Machine
end

