-- ==== Sys2Proof/Machine/FabricCells.lean ====
section
/-!
DEFINITION. The meanings of the commands of cells and port actions of the rim fabric.
-/
namespace Sys2Proof.Machine

/-- CELL_PASS (R323). A cell executes PASS in one tree cycle. -/
def execCellPass (t : Fin 8) (i : Fin 144) (s : State) : Host.Outcome State Fault Refusal := s.cell t i 0o0 0

/-- CELL_ADD (R323). A cell executes ADD. -/
def execCellAdd (t : Fin 8) (i : Fin 144) (s : State) : Host.Outcome State Fault Refusal := s.cell t i 0o1 0

/-- CELL_ADDC (R323). A cell executes ADDC. -/
def execCellAddc (t : Fin 8) (i : Fin 144) (s : State) : Host.Outcome State Fault Refusal := s.cell t i 0o2 0

/-- CELL_SUB (R323). A cell executes SUB. -/
def execCellSub (t : Fin 8) (i : Fin 144) (s : State) : Host.Outcome State Fault Refusal := s.cell t i 0o3 0

/-- CELL_SUBC (R323). A cell executes SUBC. -/
def execCellSubc (t : Fin 8) (i : Fin 144) (s : State) : Host.Outcome State Fault Refusal := s.cell t i 0o4 0

/-- CELL_AND (R323). A cell executes AND. -/
def execCellAnd (t : Fin 8) (i : Fin 144) (s : State) : Host.Outcome State Fault Refusal := s.cell t i 0o5 0

/-- CELL_OR (R323). A cell executes OR. -/
def execCellOr (t : Fin 8) (i : Fin 144) (s : State) : Host.Outcome State Fault Refusal := s.cell t i 0o6 0

/-- CELL_XOR (R323). A cell executes XOR. -/
def execCellXor (t : Fin 8) (i : Fin 144) (s : State) : Host.Outcome State Fault Refusal := s.cell t i 0o7 0

/-- CELL_ANDN (R323). A cell executes ANDN. -/
def execCellAndn (t : Fin 8) (i : Fin 144) (s : State) : Host.Outcome State Fault Refusal := s.cell t i 0o10 0

/-- CELL_SHL (R323). A cell executes SHL. -/
def execCellShl (t : Fin 8) (i : Fin 144) (s : State) : Host.Outcome State Fault Refusal := s.cell t i 0o11 0

/-- CELL_SHR (R323). A cell executes SHR. -/
def execCellShr (t : Fin 8) (i : Fin 144) (s : State) : Host.Outcome State Fault Refusal := s.cell t i 0o12 0

/-- CELL_SAR (R323). A cell executes SAR. -/
def execCellSar (t : Fin 8) (i : Fin 144) (s : State) : Host.Outcome State Fault Refusal := s.cell t i 0o13 0

/-- CELL_ROL (R323). A cell executes ROL. -/
def execCellRol (t : Fin 8) (i : Fin 144) (s : State) : Host.Outcome State Fault Refusal := s.cell t i 0o14 0

/-- CELL_LIT (R323). A cell executes LIT. -/
def execCellLit (t : Fin 8) (i : Fin 144) (s : State) : Host.Outcome State Fault Refusal := s.cell t i 0o15 0

/-- CELL_LITH (R323). A cell executes LITH. -/
def execCellLith (t : Fin 8) (i : Fin 144) (s : State) : Host.Outcome State Fault Refusal := s.cell t i 0o16 0

/-- CELL_EQ (R323). A cell executes EQ. -/
def execCellEq (t : Fin 8) (i : Fin 144) (s : State) : Host.Outcome State Fault Refusal := s.cell t i 0o17 0

/-- CELL_LTU (R323). A cell executes LTU. -/
def execCellLtu (t : Fin 8) (i : Fin 144) (s : State) : Host.Outcome State Fault Refusal := s.cell t i 0o20 0

/-- CELL_LTS (R323). A cell executes LTS. -/
def execCellLts (t : Fin 8) (i : Fin 144) (s : State) : Host.Outcome State Fault Refusal := s.cell t i 0o21 0

/-- CELL_MULL (R323). A cell executes MULL. -/
def execCellMull (t : Fin 8) (i : Fin 144) (s : State) : Host.Outcome State Fault Refusal := s.cell t i 0o22 0

/-- CELL_MULH (R323). A cell executes MULH. -/
def execCellMulh (t : Fin 8) (i : Fin 144) (s : State) : Host.Outcome State Fault Refusal := s.cell t i 0o23 0

/-- CELL_SEL (R329). A cell executes SEL. -/
def execCellSel (t : Fin 8) (i : Fin 144) (s : State) : Host.Outcome State Fault Refusal := s.cell t i 0o24 0

/-- CELL_MXC (R330). A cell executes the multiplexer cascade. -/
def execCellMxc (t : Fin 8) (i : Fin 144) (s : State) : Host.Outcome State Fault Refusal := s.cell t i 0o25 0

/-- CELL_EXT (R323). A cell executes EXT. -/
def execCellExt (t : Fin 8) (i : Fin 144) (s : State) : Host.Outcome State Fault Refusal := s.cell t i 0o26 0

/-- CELL_DEP (R323). A cell executes DEP. -/
def execCellDep (t : Fin 8) (i : Fin 144) (s : State) : Host.Outcome State Fault Refusal := s.cell t i 0o27 0

/-- CELL_POPC (R323). A cell executes POPC. -/
def execCellPopc (t : Fin 8) (i : Fin 144) (s : State) : Host.Outcome State Fault Refusal := s.cell t i 0o30 0

/-- CPOK (R345). PUT replies OK to the current coprocessor request. -/
def execPutCpok (t : Fin 8) (i : Fin 144) (s : State) : Host.Outcome State Fault Refusal := s.cell t i 0o31 0

/-- CPERR (R345). PUT replies CERR to the current request. -/
def execPutCperr (t : Fin 8) (i : Fin 144) (s : State) : Host.Outcome State Fault Refusal := s.cell t i 0o31 1

/-- SOUT (R345). PUT appends a word to the stream output. -/
def execPutSout (t : Fin 8) (i : Fin 144) (s : State) : Host.Outcome State Fault Refusal := s.cell t i 0o31 2

/-- SPOP (R345). PUT removes the head word of the stream input. -/
def execPutSpop (t : Fin 8) (i : Fin 144) (s : State) : Host.Outcome State Fault Refusal := s.cell t i 0o31 3

/-- SOUTF (R345). PUT appends a word and sends the words held. -/
def execPutSoutf (t : Fin 8) (i : Fin 144) (s : State) : Host.Outcome State Fault Refusal := s.cell t i 0o31 4

end Sys2Proof.Machine
end

