-- ==== Sys2Proof/Machine/FabricCommands.lean ====
section
/-!
DEFINITION. The meanings of the commands of the tiles of the rim fabric.
-/
namespace Sys2Proof.Machine

/-- TILE_LOAD (R341). CTRL.LOAD starts a configuration load from CFGBASE. -/
def execTileLoad (who : Who) (t : Fin 8) (s : State) : Host.Outcome State Fault Refusal := s.write who (pgTile t.val) 2 1

/-- TILE_LOAD_DONE (R341). The loader accepts the image, giving READY, or refuses it, giving UNCONF. -/
def execTileLoadDone (t : Fin 8) (s : State) : Host.Outcome State Fault Refusal := s.live (tileLoadDone t.val)

/-- TILE_UNLOAD (R339). CTRL.UNLOAD moves the tile to UNCONF. -/
def execTileUnload (who : Who) (t : Fin 8) (s : State) : Host.Outcome State Fault Refusal := s.write who (pgTile t.val) 2 2

/-- TILE_GO (R343). A GO write commits the named READY tiles. -/
def execTileGo (who : Who) (t : Fin 8) (mask : BitVec 8) (s : State) : Host.Outcome State Fault Refusal :=
  s.write who (pgTile t.val) 17 (mask.setWidth 36)

/-- COP_CURRENT (R344). The next waiting coprocessor request becomes current after the previous reply. -/
def execCopCurrent (t : Fin 8) (s : State) : Host.Outcome State Fault Refusal := s.live (copCurrent t.val)

/-- TILE_UNFREEZE (R348). A tile frozen on a full stream output resumes when room appears. -/
def execTileUnfreeze (t : Fin 8) (s : State) : Host.Outcome State Fault Refusal := s.live (tileUnfreeze t.val)

/-- TREE_CLOCK_CHANGE (R335). A CLK change takes effect at the tree's next cycle boundary. -/
def execTreeClockChange (t : Fin 8) (r : Fin 4) (s : State) : Host.Outcome State Fault Refusal := s.live (treeClockChange t.val r.val)

/-- TILE_DOMAIN_OFF (R424). TILEOFF := 1 takes the tile out of RUN and turns its domain off. -/
def execTileDomainOff (who : Who) (t : Fin 8) (s : State) : Host.Outcome State Fault Refusal := s.run (pdomBit who (8 + t.val) true)

/-- TILE_DOMAIN_ON (R424). TILEOFF := 0 powers the tile, which wakes UNCONF. -/
def execTileDomainOn (who : Who) (t : Fin 8) (s : State) : Host.Outcome State Fault Refusal := s.run (pdomBit who (8 + t.val) false)

end Sys2Proof.Machine
end

