-- ==== Sys2Proof/Machine/GanderCommands.lean ====
section
/-!
DEFINITION. The meanings of the commands of Gander, JTAG and the management targets.
-/
namespace Sys2Proof.Machine

/-- PORT_OWN_WRITE (R490). A write of OWN claims or releases the debug port. -/
def execPortOwnWrite (jtag : Bool) (own : BitVec 2) (s : State) : Host.Outcome State Fault Refusal := s.run (ownWrite jtag (own.setWidth 36))

/-- JTAG_UPDATE_DR (R491). Update-DR of GDBG starts one debug-port slot access. -/
def execJtagUpdateDr (v : BitVec 303) (s : State) : Host.Outcome State Fault Refusal := s.aon (updateDr v)

/-- TAP_RESET (R490). Test-Logic-Reset releases JTAG ownership of the port. -/
def execTapReset (s : State) : Host.Outcome State Fault Refusal := s.aon tapReset

/-- GANDER_NOP (R492). Port command NOP does nothing. -/
def execGanderNop (jtag : Bool) (mask : BitVec 4) (s : State) : Host.Outcome State Fault Refusal := s.run (portCmd jtag 0o0 mask)

/-- AUTH (R493). Relays a Thonos command through the host-bank mailbox. -/
def execAuth (jtag : Bool) (mask : BitVec 4) (s : State) : Host.Outcome State Fault Refusal := s.run (portCmd jtag 0o1 mask)

/-- HALT (R495). Requests debug halt of the named bellwethers. -/
def execHalt (jtag : Bool) (mask : BitVec 4) (s : State) : Host.Outcome State Fault Refusal := s.run (portCmd jtag 0o2 mask)

/-- DEBUG_HALT_ENTRY (R496). A core halts at a boundary, and its die, feed columns and watchdog stop. -/
def execDebugHaltEntry (k : Fin 4) (s : State) : Host.Outcome State Fault Refusal := s.live (haltEntry k.val)

/-- GANDER_EVENT_INPUT (R495). A rise of Gander's event input halts the bellwethers named in EVHALT. -/
def execGanderEventInput (s : State) : Host.Outcome State Fault Refusal := s.live gaRise

/-- GANDER_RESUME (R499). Releases halted bellwethers. -/
def execGanderResume (jtag : Bool) (mask : BitVec 4) (s : State) : Host.Outcome State Fault Refusal := s.run (portCmd jtag 0o3 mask)

/-- STEP (R500). Runs one instruction and halts again. -/
def execStep (jtag : Bool) (mask : BitVec 4) (s : State) : Host.Outcome State Fault Refusal := s.run (portCmd jtag 0o4 mask)

/-- FEED (R501). Executes a fed instruction in a halted core. -/
def execFeed (jtag : Bool) (mask : BitVec 4) (s : State) : Host.Outcome State Fault Refusal := s.run (portCmd jtag 0o5 mask)

/-- RDREG (R503). Reads a register of a halted core without side effects. -/
def execRdreg (jtag : Bool) (mask : BitVec 4) (s : State) : Host.Outcome State Fault Refusal := s.run (portCmd jtag 0o6 mask)

/-- WRREG (R503). Writes a register of a halted core. -/
def execWrreg (jtag : Bool) (mask : BitVec 4) (s : State) : Host.Outcome State Fault Refusal := s.run (portCmd jtag 0o7 mask)

/-- MRD (R509). Reads memory into BUF through Gander's ring master. -/
def execMrd (jtag : Bool) (mask : BitVec 4) (s : State) : Host.Outcome State Fault Refusal := s.run (portCmd jtag 0o10 mask)

/-- MWR (R509). Writes memory from BUF and probes for completion. -/
def execMwr (jtag : Bool) (mask : BitVec 4) (s : State) : Host.Outcome State Fault Refusal := s.run (portCmd jtag 0o11 mask)

/-- GANDER_DEVRST (R492). Port command DEVRST causes device reset GANDER. -/
def execGanderDevrst (jtag : Bool) (mask : BitVec 4) (s : State) : Host.Outcome State Fault Refusal := s.run (portCmd jtag 0o12 mask)

/-- TERM_READ (R508). A debugger read of TERMk takes TX and clears TXFULL. -/
def execTermRead (jtag : Bool) (k : Fin 4) (s : State) : Host.Outcome State Fault Refusal := s.live (termFetch jtag k.val)

/-- TERM_WRITE (R508). A debugger write of TERMk loads RX or is refused. -/
def execTermWrite (jtag : Bool) (k : Fin 4) (v : Word) (s : State) : Host.Outcome State Fault Refusal := s.run (dbgWrite jtag (12 + k.val) v)

/-- MGMT_SELECT (R520). An I²C or I3C write of four octets selects a page and slot. -/
def execMgmtSelect (i3c : Bool) (p : BitVec 16) (slot : BitVec 16) (s : State) : Host.Outcome State Fault Refusal := s.aon (mgmtSelect i3c p slot)

/-- MGMT_READ (R520). An I²C or I3C read returns the register value and a status octet. -/
def execMgmtRead (i3c : Bool) (s : State) : Host.Outcome State Fault Refusal := s.aon (mgmtRead i3c)

/-- I3C_DAA (R520). The I3C target accepts a dynamic address. -/
def execI3cDaa (a : BitVec 7) (s : State) : Host.Outcome State Fault Refusal := s.run (i3cDaa a)

/-- JTAG_UPDATE_IR (R529). Update-IR loads a new TAP instruction, and CLAMP, HIGHZ or EXTEST take hold of the pins where
allowed. -/
def execJtagUpdateIr (ir : BitVec 6) (testEnLow : Bool) (s : State) : Host.Outcome State Fault Refusal := s.aon (updateIr ir testEnLow)

end Sys2Proof.Machine
end

