-- ==== Sys2Proof/Machine/HostCommands.lean ====
section
/-!
DEFINITION. The meanings of the commands of the host link.
-/
namespace Sys2Proof.Machine

/-- HOST_MEM_WRITE (R386). An inbound host write TLP is cut into ring packets and forwarded, or is dropped. -/
def execHostMemWrite (f : Fin 4) (bar : Bar) (off : Nat) (data : List Octet) (poison : Bool) (s : State) : Host.Outcome State Fault Refusal :=
  s.live (hostWrite f.val bar.no off data poison)

/-- HOST_MEM_READ (R386). An inbound host read is cut into RD packets, and its completions return in ascending address order.
-/
def execHostMemRead (f : Fin 4) (bar : Bar) (off : Nat) (len : Nat) (s : State) : Host.Outcome State Fault Refusal :=
  s.live (hostRead f.val bar.no off len)

/-- MSIX_TABLE_ACCESS (R384). The host link serves an access to an MSI-X table or PBA offset itself. -/
def execMsixTableAccess (f : Fin 4) (off : Nat) (write : Option (List Octet)) (len : Nat) (s : State) : Host.Outcome State Fault Refusal :=
  s.live (msixAccess f.val off write len)

/-- LINK_TRAINING_DONE (R381). A link half finishes training and enters L0, or its training fails (`up`). -/
def execLinkTrainingDone (h : Fin 2) (gen : BitVec 3) (width : Nat) (up : Bool) (s : State) : Host.Outcome State Fault Refusal :=
  s.live (linkTrained h.val gen width up)

/-- LINK_DOWN (R388). A link leaves L0, which acts as an FLR of every function of its half. -/
def execLinkDown (h : Fin 2) (landed : List Bool) (s : State) : Host.Outcome State Fault Refusal := s.live (linkDown h.val landed)

/-- PERST (R388). Hot Reset or PE_PERST_N low resets one half's functions. -/
def execPerst (h : Fin 2) (landed : List Bool) (s : State) : Host.Outcome State Fault Refusal := s.live (linkReset h.val 0o13 landed)

/-- FLR (R388). A function level reset ends its engines' descriptors and resets its state. -/
def execFlr (f : Fin 4) (landed : List Bool) (s : State) : Host.Outcome State Fault Refusal := s.live (flrCmd f.val landed)

/-- BAR2_RESIZE (R385). A BAR2 resize sets HBMWIN.BASE to 0 and raises RESIZE. -/
def execBar2Resize (f : Fin 4) (sz : Fin 9) (s : State) : Host.Outcome State Fault Refusal := s.live (bar2Resize f.val sz.val)

/-- RETRAIN (R398). CTRL.RETRAIN retrains the link with the current MAXGEN. -/
def execRetrain (who : Who) (h : Fin 2) (s : State) : Host.Outcome State Fault Refusal :=
  s.run (fun c => pageWrite who (pgPcie h.val) 2 (withField (c.reg (pgPcie h.val) 2) 3 1 1) c)

/-- D3_ENTRY (R399). A function enters D3hot, and its engines hold before their next descriptor. -/
def execD3Entry (f : Fin 4) (s : State) : Host.Outcome State Fault Refusal := s.live (d3Entry f.val)

/-- D0_RETURN (R391). A function returns to D0, and its engines resume. -/
def execD0Return (f : Fin 4) (s : State) : Host.Outcome State Fault Refusal := s.live (d0Return f.val)

/-- CONFIGURATION_WRITE (R382, R391). A host configuration write changes a function's Command, MSI-X control and Device Control, and clears
AER status; clearing Bus Master Enable during a transfer ends the descriptor with FUNC. -/
def execConfigurationWrite (f : Fin 4) (bme : Bool) (mse : Bool) (msixEn : Bool) (more : CfgMore) (landed : List Bool)
    (s : State) : Host.Outcome State Fault Refusal :=
  s.live (configWrite f.val bme mse msixEn more.fmask more.mps.val more.mrrs.val more.aer landed)

/-- UNSUPPORTED_REQUEST (R382). An inbound request of an unsupported kind, such as AtomicOps or I/O, completes as Unsupported
Request. -/
def execUnsupportedRequest (f : Fin 4) (s : State) : Host.Outcome State Fault Refusal := s.live (unsupported f.val)

end Sys2Proof.Machine
end

