-- ==== Sys2Proof/Machine/CtuRing.lean ====
section
/-!
DEFINITION. What the corner-turn units ask over the drove rings: descriptor fetches and status words (R248 to R250, R256).
-/
namespace Sys2Proof.Machine

/-- A request of channel ch goes on: its answer, and the state with the channel's request. -/
def chanGather (die p ch : Nat) (req : Nat × Pkt) (c : Chip) : Option Srv × Chip :=
  let r := gather (.ctu die) (fun _ => true) [req] (c.chan die p ch).xact c
  let x := r.2.2.chan die p ch
  if r.1 then (r.2.1.ans.head?, r.2.2.setChan die p ch { x with xact := Xact.none })
  else (none, r.2.2.setChan die p ch { x with xact := r.2.1 })

/-- The entry that a fetch gives: nothing when it is refused, or a word of it fails its check (R249, R284). -/
def entryWords (r : Srv) : Option (List Word) :=
  if r.status ≠ 0 ∨ r.mask ≠ [] then none else some ((List.range 8).map (fun i => wordOf ((r.data.drop (4 * i)).take 4)))

/-- DESCRIPTOR_FETCH_DONE (R249): the entry is read and checked, and the channel goes to RESERVE or ends with a code. -/
def descriptorDone (die p ch : Nat) (c : Chip) : Chip :=
  let x := c.chan die p ch
  if x.st ≠ 2 ∨ x.code.isSome = true then c
  else if ctuNoCol c die p then c.setChan die p ch { x with code := some 0o12 }
  else
    match chanGather die p ch (opRd, request (.ctu die) true (entryAddr c die p ch 0) 32 [] [] c) c with
    | (none, c) => c
    | (some r, c) =>
      match entryWords r with
      | none => c.setChan die p ch { c.chan die p ch with code := some 0o02 }
      | some ws =>
        let x := { c.chan die p ch with words := ws }
        match chanCheck x with
        | some code => c.setChan die p ch { x with code := some code }
        | none => c.setChan die p ch (if x.empty then { x with code := some 0o01 } else { x with st := 3 })

/-- The status word of R250. -/
def chanStatus (x : Chan) (code : Nat) : Word :=
  withField (withField (withField (withField (withField (withField 0 35 1 1) 30 5 code) 29 1 x.hperr.toNat) 28 1 x.pperr.toNat)
    27 1 x.drop8.toNat) 25 2 x.origin

/-- Steps 2 to 4 of R256: CHSTAT, IDLE, DONE or ERR, and the chain. -/
def channelEnd (die p ch code : Nat) (c : Chip) : Chip :=
  let x := c.chan die p ch
  let c := c.setReg (pgCtu die p) (32 + ch) (withField 0 0 33 (fieldOf (chanStatus x code) 2 33))
  let c := c.setChan die p ch Chan.idle
  let good := decide (code ≤ 1)
  let c := c.raise (pgCtu die p) (if good then ch else 16 + ch)
  if good && x.chen && !x.nochain then
    if (c.chan die p x.chain).st = 0 then chanStart die p x.chain 2 c else c.refuse (pgCtu die p) 17 2
  else c

/-- CHANNEL_COMPLETE (R256): once its reservation and its HBM writes are gone, the status goes to word 7 and its answer is awaited; a CTU
without a logical fold column writes none (R249). -/
def channelComplete (die p ch : Nat) (c : Chip) : Chip :=
  let x := c.chan die p ch
  match x.code with
  | none => c
  | some code =>
    if x.resv || !x.wq.isEmpty then c
    else if ctuNoCol c die p then channelEnd die p ch code c
    else match chanGather die p ch
        (opWr, request (.ctu die) true (entryAddr c die p ch 7) 4 (nonetsOf (chanStatus x code)) [] c) c with
      | (none, c) => c
      | (some _, c) => channelEnd die p ch code c

end Sys2Proof.Machine
end

