-- ==== Sys2Proof/Machine/MemoryCommands.lean ====
section
/-!
DEFINITION. The meanings of the commands of corner-turn channels, HBM and scratch banks.
-/
namespace Sys2Proof.Machine

/-- CTU_CHSTART (R251). A write of CHSTART starts corner-turn channels. -/
def execCtuChstart (who : Who) (die : Fin 4) (p : Fin 9) (mask : BitVec 16) (s : State) : Host.Outcome State Fault Refusal :=
  s.write who (pgCtu die.val p.val) 17 (mask.setWidth 36)

/-- CTU_CHABORT (R257). A write of CHABORT aborts channels. -/
def execCtuChabort (who : Who) (die : Fin 4) (p : Fin 9) (mask : BitVec 16) (s : State) : Host.Outcome State Fault Refusal :=
  s.write who (pgCtu die.val p.val) 18 (mask.setWidth 36)

/-- SLOT_GRANT (R252). A PENDING channel takes a free descriptor slot and enters FETCH. -/
def execSlotGrant (die : Fin 4) (p : Fin 9) (ch : Fin 16) (s : State) : Host.Outcome State Fault Refusal := s.live (slotGrant die.val p.val ch.val)

/-- DESCRIPTOR_FETCH_DONE (R249). A fetched descriptor is checked, and the channel proceeds or ends with a code. -/
def execDescriptorFetchDone (die : Fin 4) (p : Fin 9) (ch : Fin 16) (s : State) : Host.Outcome State Fault Refusal :=
  s.live (descriptorDone die.val p.val ch.val)

/-- RESERVATION_PLACE (R254). A channel's reservation is granted, and the channel enters RUN. -/
def execReservationPlace (die : Fin 4) (p : Fin 9) (ch : Fin 16) (s : State) : Host.Outcome State Fault Refusal :=
  s.live (fun c => reservationPlace die.val p.val ch.val (busyRanges c die.val) c)

/-- STAGING_FILL (R258). HBM read data arrives in a CTU staging buffer. -/
def execStagingFill (die : Fin 4) (p : Fin 9) (ch : Fin 16) (sev : List Sev) (s : State) : Host.Outcome State Fault Refusal :=
  s.live (stagingFill die.val p.val ch.val sev)

/-- RESERVATION_CLEAR (R254). The last port write or port read of the channel clears its reservation. -/
def execReservationClear (die : Fin 4) (p : Fin 9) (ch : Fin 16) (s : State) : Host.Outcome State Fault Refusal :=
  s.live (reservationClear die.val p.val ch.val)

/-- CHANNEL_COMPLETE (R256). A channel writes its status, becomes IDLE and signals DONE or ERR. -/
def execChannelComplete (die : Fin 4) (p : Fin 9) (ch : Fin 16) (s : State) : Host.Outcome State Fault Refusal :=
  s.live (channelComplete die.val p.val ch.val)

/-- CTU_GONE (R263). A GONE from the HBM controller ends the channel as an abort with code GONE. -/
def execCtuGone (die : Fin 4) (p : Fin 9) (ch : Fin 16) (s : State) : Host.Outcome State Fault Refusal := s.live (ctuGone die.val p.val ch.val)

/-- HBM_REQUEST (R270). An HBM controller performs a queued read or write. -/
def execHbmRequest (die : Fin 4) (q : HbmReq) (s : State) : Host.Outcome State Fault Refusal := s.live (hbmRequest die.val q)

/-- HBM_REFRESH (R275). A bank receives its per-bank refresh when the interval falls due. Nothing that a request can observe
changes. -/
def execHbmRefresh (_die : Fin 4) (_m : Fin 2) (_bank : BitVec 8) (s : State) : Host.Outcome State Fault Refusal := s.run id

/-- BANK_ACCESS (R282). A bank port performs one access, with same-word collisions ordered as Table 9-4 gives. -/
def execBankAccess (b : Fin 9) (owner : Option BankAcc) (ring : Option BankAcc) (s : State) : Host.Outcome State Fault Refusal :=
  s.live (bankAccess b.val owner ring)

/-- BTEST_REGION (R285). The background test copies, marches and restores one 64-word region. -/
def execBtestRegion (b : Fin 9) (fails : List (Nat × Nat)) (s : State) : Host.Outcome State Fault Refusal := s.live (testRegion b.val fails)

/-- BANK_PDOWN (R287). A write of PDOWN := 1 closes the bank storage. -/
def execBankPdown (who : Who) (b : Fin 9) (s : State) : Host.Outcome State Fault Refusal := s.write who (pgBank b.val) 2 1

/-- BANK_OFF (R287). Once accepted accesses complete, the storage goes OFF. -/
def execBankOff (b : Fin 9) (s : State) : Host.Outcome State Fault Refusal := s.live (bankOff b.val)

/-- BANK_WAKE (R288). A write of PDOWN := 0 wakes the storage and starts the clear. -/
def execBankWake (who : Who) (b : Fin 9) (s : State) : Host.Outcome State Fault Refusal := s.write who (pgBank b.val) 2 0

/-- BANK_CLEAR_DONE (R288). The wake clear ends, and the held accesses proceed. -/
def execBankClearDone (b : Fin 9) (s : State) : Host.Outcome State Fault Refusal := s.live (fun c => pump (bankClearDone b.val c))

/-- SECURE_WIPE_DONE (R289). The wipe ends and raises WIPED. -/
def execSecureWipeDone (s : State) : Host.Outcome State Fault Refusal := s.live wipeEnd

/-- STACK_TEMPERATURE_REPORT (R275). An HBM stack reports a new temperature and refresh rate, updating TEMP and HOTREF and
raising THERM at 95 °C or more. -/
def execStackTemperatureReport (die : Fin 4) (m : Fin 2) (temp : BitVec 8) (hot : Bool) (s : State) : Host.Outcome State Fault Refusal :=
  s.live (stackTemp die.val m.val temp hot)

end Sys2Proof.Machine
end

