-- ==== Sys2Proof/Machine/MicroCommands.lean ====
section
/-!
DEFINITION. The meanings of the commands of microsequencers, control stores and the vote.
-/
namespace Sys2Proof.Machine

/-- CSDATA_COMMIT (R210). A write of CSDATA3 stores the assembled microword at CSADDR and advances CSADDR. -/
def execCsdataCommit (who : Who) (k : Fin 4) (v : Word) (s : State) : Host.Outcome State Fault Refusal := s.write who (pgMseq k.val) 33 v

/-- MSEQ_START (R216). At an instruction boundary, the microsequencer begins the next instruction once no reservation blocks
it. -/
def execMseqStart (k : Fin 4) (s : State) : Host.Outcome State Fault Refusal := s.live (mseqStart k.val)

/-- CONT (R219). A microword continues at NEXT ORed with its conditions. -/
def execMicroCont (k : Fin 4) (s : State) : Host.Outcome State Fault Refusal := s.live (microStep k.val 1)

/-- CALL (R217). A microword pushes the return address and branches. -/
def execMicroCall (k : Fin 4) (s : State) : Host.Outcome State Fault Refusal := s.live (microStep k.val 2)

/-- RET (R217). A microword pops the microsubroutine stack. -/
def execMicroRet (k : Fin 4) (s : State) : Host.Outcome State Fault Refusal := s.live (microStep k.val 3)

/-- END (R218). A microword completes the array instruction. -/
def execMicroEnd (k : Fin 4) (s : State) : Host.Outcome State Fault Refusal := s.live (microStep k.val 4)

/-- WAITB (R220). A microword waits for the last sampled bell and then branches. -/
def execMicroWaitb (k : Fin 4) (s : State) : Host.Outcome State Fault Refusal := s.live (microStep k.val 5)

/-- PREEMPT (R227). The PREEMPT command requests that the microsequencer be held. -/
def execPreempt (who : Who) (k : Fin 4) (s : State) : Host.Outcome State Fault Refusal := s.write who (pgMseq k.val) 2 1

/-- PREEMPT_TAKE_EFFECT (R227). At a checkpoint or boundary the microsequencer writes the context and sets HELD. -/
def execPreemptTakeEffect (k : Fin 4) (s : State) : Host.Outcome State Fault Refusal := s.live (preemptTake k.val)

/-- MSEQ_RESUME (R230). The RESUME command restores the context and continues at RPC. -/
def execMseqResume (who : Who) (k : Fin 4) (s : State) : Host.Outcome State Fault Refusal := s.write who (pgMseq k.val) 2 2

/-- MSEQ_DISCARD (R230). The DISCARD command ends the held instruction. -/
def execMseqDiscard (who : Who) (k : Fin 4) (s : State) : Host.Outcome State Fault Refusal := s.write who (pgMseq k.val) 2 3

/-- MSEQ_SAVE (R230). The SAVE command copies the scratch planes and lamb registers to user planes. -/
def execMseqSave (who : Who) (k : Fin 4) (s : State) : Host.Outcome State Fault Refusal := s.live (mseqService who k.val 4)

/-- MSEQ_RESTORE (R230). The RESTORE command copies them back. -/
def execMseqRestore (who : Who) (k : Fin 4) (s : State) : Host.Outcome State Fault Refusal := s.live (mseqService who k.val 5)

/-- VOTE_COMPARE (R233). The vote unit compares the four items and issues, resynchronises or faults. -/
def execVoteCompare (cop : Bool) (s : State) : Host.Outcome State Fault Refusal := s.live (voteStep cop false)

/-- VOTE_WINDOW_EXPIRY (R233). At the end of WINDOW, missing items count as differing. -/
def execVoteWindowExpiry (cop : Bool) (s : State) : Host.Outcome State Fault Refusal := s.live (voteStep cop true)

/-- RESERVED_SEQOP (R218). The microsequencer fetches a microword with a reserved SEQOP, such as the all-zero word of empty
RAM, and stops with MWR error. -/
def execReservedSeqop (k : Fin 4) (s : State) : Host.Outcome State Fault Refusal := s.live (reservedSeqop k.val)

end Sys2Proof.Machine
end

