-- ==== Sys2Proof/Machine/ModeCommands.lean ====
section
/-!
DEFINITION. The meanings of the commands of modes, start-up, repair and device resets.
-/
namespace Sys2Proof.Machine

/-- MODE_REQ_LINKED (R402). A request for LINKED is checked and begins the change. -/
def execModeReqLinked (who : Who) (s : State) : Host.Outcome State Fault Refusal := s.write who pgHub 18 2

/-- MODE_REQ_SPLIT (R402). A request for SPLIT is checked and begins the change. -/
def execModeReqSplit (who : Who) (s : State) : Host.Outcome State Fault Refusal := s.write who pgHub 18 3

/-- MODE_REQ_MAINTENANCE (R408). A request for MAINTENANCE is checked and begins the change. -/
def execModeReqMaintenance (who : Who) (s : State) : Host.Outcome State Fault Refusal := s.write who pgHub 18 4

/-- MODE_REQ_QUIESCENT (R410). A request for QUIESCENT is checked and begins the change. -/
def execModeReqQuiescent (who : Who) (s : State) : Host.Outcome State Fault Refusal := s.write who pgHub 18 5

/-- MODE_REQ_OFF (R409). A request for OFF turns off every domain but always-on. -/
def execModeReqOff (who : Who) (s : State) : Host.Outcome State Fault Refusal := s.write who pgHub 18 7

/-- MODE_CHANGE_COMPLETE (R405). After preemption and aborts, the target mode's steps run and CUR takes the target. -/
def execModeChangeComplete (s : State) : Host.Outcome State Fault Refusal := s.live modeChangeComplete

/-- POWER_ON_RESET (R413). VDD_AON rises, clearing the always-on domain and taking device reset POR. -/
def execPowerOnReset (s : State) : Host.Outcome State Fault Refusal := s.run powerOnReset

/-- SYS_RST_ASSERT (R517). SYS_RST_N low for 2 µs causes device reset PIN. -/
def execSysRstAssert (s : State) : Host.Outcome State Fault Refusal := s.aon (deviceReset 4)

/-- HUB_DEVRST (R419). A write of HUB.DEVRST causes device reset HOST. -/
def execHubDevrst (who : Who) (s : State) : Host.Outcome State Fault Refusal := s.write who pgHub 23 1

/-- BOOT (R415). Once every exit condition holds, the device leaves OFF and runs the BOOT steps. -/
def execBoot (facts : BootFacts) (s : State) : Host.Outcome State Fault Refusal := s.aon (boot facts)

/-- RMAP_COMMIT (R417). RMAP.COMMIT writes the map in use as the next fuse generation. -/
def execRmapCommit (who : Who) (s : State) : Host.Outcome State Fault Refusal := s.write who pgHub 21 (BitVec.ofNat 36 (2 ^ 35))

/-- RMAP_COMMIT_DONE (R417). The fuse write ends and BUSY clears. -/
def execRmapCommitDone (s : State) : Host.Outcome State Fault Refusal := s.live rmapCommitDone

/-- FTEST_START (R459). FTEST.START runs the full fold test in MAINTENANCE. -/
def execFtestStart (who : Who) (s : State) : Host.Outcome State Fault Refusal := s.write who pgFlock 25 1

/-- FOLD_TEST_DONE (R459). The fold test ends, marks failed columns and raises FTDONE. -/
def execFoldTestDone (found : BitVec 40) (s : State) : Host.Outcome State Fault Refusal := s.live (foldTestDone found)

/-- MCCMD_REISSUE (R457). REISSUE clears ISTOP and resumes the queued instructions. -/
def execMccmdReissue (who : Who) (k : Fin 4) (s : State) : Host.Outcome State Fault Refusal := s.write who pgFlock (21 + k.val) 1

/-- MCCMD_FLUSH (R457). FLUSH empties the queue, fixes the mask depth and clears ISTOP. -/
def execMccmdFlush (who : Who) (k : Fin 4) (s : State) : Host.Outcome State Fault Refusal := s.write who pgFlock (21 + k.val) 2

/-- VDD_AON_LOSS (R428). VDD_AON falls below its reset level and holds the always-on domain in reset. -/
def execVddAonLoss (s : State) : Host.Outcome State Fault Refusal := s.run aonLoss

end Sys2Proof.Machine
end

