-- ==== Sys2Proof/Machine/PowerCommands.lean ====
section
/-!
DEFINITION. The meanings of the commands of rails, clocks, margins and temperature.
-/
namespace Sys2Proof.Machine

/-- SUPPLY_RESET (R428). A rail at its reset level causes device reset SUPPLY. -/
def execSupplyReset (r : Fin 14) (mv : BitVec 12) (dur : BitVec 24) (s : State) : Host.Outcome State Fault Refusal :=
  s.aon (supplyReset r.val mv.toNat dur.toNat)

/-- THERMAL_TRIP (R436). A sensor at 115 °C causes device reset THERM. -/
def execThermalTrip (s : State) : Host.Outcome State Fault Refusal := s.aon thermalTrip

/-- SUPPLY_DIP_BEGIN (R425). A rail below its warning level sends its islands to half clock. -/
def execSupplyDipBegin (r : Fin 14) (s : State) : Host.Outcome State Fault Refusal := s.aon (dipBegin r.val)

/-- SUPPLY_DIP_END (R426). The rail returns to 96 % and the 10 µs wait begins. -/
def execSupplyDipEnd (r : Fin 14) (mv : BitVec 12) (dur : BitVec 24) (s : State) : Host.Outcome State Fault Refusal :=
  s.aon (dipEnd r.val mv.toNat dur.toNat)

/-- CLOCK_RAMP_GROUP (R426). One island group leaves half clock; after group 7 WARN clears. -/
def execClockRampGroup (r : Fin 14) (s : State) : Host.Outcome State Fault Refusal := s.aon (rampGroup r.val)

/-- THERMAL_SAMPLE (R434). The thermal monitor reads every sensor, every 50 µs. -/
def execThermalSample (rs : List (Nat × BitVec 8)) (s : State) : Host.Outcome State Fault Refusal := s.aon (thermalSample rs)

/-- THROTTLE_STEP (R435). TSTEP falls or rises one step, or the thermal hold begins or ends. -/
def execThrottleStep (i : Fin 1040) (s : State) : Host.Outcome State Fault Refusal := s.live (throttleStep i.val)

/-- DELAY_MEASUREMENT (R439). A completed margin measurement updates M2G, MNOW and PLAN. -/
def execDelayMeasurement (i : Fin 1040) (d : BitVec 24) (s : State) : Host.Outcome State Fault Refusal := s.live (measure i.val d.toNat)

/-- FLOOR_TRIP (R440). MNOW below MFLOOR sends the island to half clock within 20 ns. -/
def execFloorTrip (i : Fin 1040) (s : State) : Host.Outcome State Fault Refusal := s.live (floorTrip i.val)

/-- PLL_LOCK (R432). The PLL locks at a new step, and the island switches at its next boundary. -/
def execPllLock (i : Fin 1040) (s : State) : Host.Outcome State Fault Refusal := s.live (pllLock i.val)

end Sys2Proof.Machine
end

