-- ==== Sys2Proof/Machine/Registers.lean ====
section
/-!
DEFINITION. The meanings of the commands of register writes, event packets and PERTURB.
-/
namespace Sys2Proof.Machine

/-- REGISTER_WRITE (R53). A write to a register slot with no behaviour of its own updates its fields after the lock,
initiator, mode and encoding checks. -/
def execRegisterWrite (who : Who) (p : BitVec 12) (slot : BitVec 9) (v : Word) (s : State) : Host.Outcome State Fault Refusal :=
  s.write who p.toNat slot.toNat v

/-- EV_SET (R54). A write of 1 to an EV_SET bit makes that event occur. -/
def execEvSet (who : Who) (p : BitVec 12) (ev : Fin 36) (s : State) : Host.Outcome State Fault Refusal :=
  s.write who p.toNat 7 (BitVec.ofNat 36 (2 ^ ev.val))

/-- EVL (R394). The event hub takes an EVL packet and sets the level of the page's source. -/
def execEvl (p : Arriving (BitVec 12)) (s : State) : Host.Outcome State Fault Refusal := s.live (evlArrive p.what.toNat p.hdr.toNat)

/-- PERTURB_APPLY (R55). A changed PERTURB takes effect at the island's next beat or cycle boundary. -/
def execPerturbApply (p : BitVec 12) (s : State) : Host.Outcome State Fault Refusal := s.live (perturbApply p.toNat)

end Sys2Proof.Machine
end

