-- ==== Sys2Proof/Machine/RingCommands.lean ====
section
/-!
DEFINITION. The meanings of the commands of the drove rings.
-/
namespace Sys2Proof.Machine

/-- RING_RD (R297). A target serves a read packet and returns DATA. -/
def execRingRd (q : Pkt) (sev : List Sev) (s : State) : Host.Outcome State Fault Refusal := s.live (ringServe opRd q sev)

/-- RING_WR (R297). A target serves a write packet and returns ACK. -/
def execRingWr (q : Pkt) (sev : List Sev) (s : State) : Host.Outcome State Fault Refusal := s.live (ringServe opWr q sev)

/-- RING_WRP (R297). A target serves a posted write packet. -/
def execRingWrp (q : Pkt) (sev : List Sev) (s : State) : Host.Outcome State Fault Refusal := s.live (ringServe opWrp q sev)

/-- RING_AADD (R297). A bank serves an atomic add packet. -/
def execRingAadd (q : Pkt) (s : State) : Host.Outcome State Fault Refusal := s.live (ringServe opAadd q [])

/-- RING_ASWAP (R297). A bank serves an atomic swap packet. -/
def execRingAswap (q : Pkt) (s : State) : Host.Outcome State Fault Refusal := s.live (ringServe opAswap q [])

/-- RING_LDR (R297). A bank serves a reserved-load packet. -/
def execRingLdr (q : Pkt) (s : State) : Host.Outcome State Fault Refusal := s.live (ringServe opLdr q [])

/-- RING_STC (R297). A bank serves a store-conditional packet. -/
def execRingStc (q : Pkt) (s : State) : Host.Outcome State Fault Refusal := s.live (ringServe opStc q [])

/-- RING_COP (R344). A tile receives a coprocessor request packet. -/
def execRingCop (k : Arriving (Fin 4)) (s : State) : Host.Outcome State Fault Refusal := s.live (copArrive k.what.val k.hdr)

/-- RING_DATA (R307). An initiator receives a DATA response and matches its tag. -/
def execRingData (r : Fin 3) (st : Arriving (Fin 16)) (lat : Nat) (s : State) : Host.Outcome State Fault Refusal :=
  s.live (fun c => pump (ringReceive opData (r.val, st.what.val) lat st.hdr.toNat c))

/-- RING_ACK (R307). An initiator receives an ACK response. -/
def execRingAck (r : Fin 3) (st : Arriving (Fin 16)) (lat : Nat) (s : State) : Host.Outcome State Fault Refusal :=
  s.live (fun c => pump (ringReceive opAck (r.val, st.what.val) lat st.hdr.toNat c))

/-- RING_COPR (R191). A core receives a coprocessor reply and writes W(RD) or traps. -/
def execRingCopr (k : Arriving (Fin 4)) (lat : Nat) (s : State) : Host.Outcome State Fault Refusal :=
  s.live (ringCopr k.what.val lat k.hdr.toNat)

/-- STRM (R304). A destination stop serves a STRM flit as a posted write. -/
def execStrm (q : Pkt) (s : State) : Host.Outcome State Fault Refusal := s.live (strm q)

/-- ORDERING_PROBE (R308). An RD with LEN = 0 is answered once every earlier request of its initiator has taken effect. -/
def execOrderingProbe (q : Pkt) (s : State) : Host.Outcome State Fault Refusal := s.live (probe q)

/-- XR_CROSSING (R294). XR receives a whole crossing packet and sends it on its next ring. -/
def execXrCrossing (opc : BitVec 4) (q : Pkt) (s : State) : Host.Outcome State Fault Refusal := s.live (xrCross opc.toNat q)

/-- STOP_RECONF_SET (R310). A write of RECONF := 1 moves the stop to HOLDING. -/
def execStopReconfSet (who : Who) (r : Fin 3) (st : Fin 16) (s : State) : Host.Outcome State Fault Refusal := s.write who (pgStop r.val st.val) 2 1

/-- STOP_ENTER_PASS (R310). A stop that has nothing left to complete enters PASS. -/
def execStopEnterPass (r : Fin 3) (st : Fin 16) (s : State) : Host.Outcome State Fault Refusal := s.live (enterPass (r.val, st.val))

/-- STOP_RECONF_CLEAR (R311). A write of RECONF := 0 returns the stop to NORMAL. -/
def execStopReconfClear (who : Who) (r : Fin 3) (st : Fin 16) (s : State) : Host.Outcome State Fault Refusal := s.write who (pgStop r.val st.val) 2 0

/-- PASS_THROUGH (R312). A packet passing a stop in PASS advances LAP, or is removed and answered with GONE. -/
def execPassThrough (r : Fin 3) (st : Arriving (Fin 16)) (s : State) : Host.Outcome State Fault Refusal :=
  s.live (fun c => pump (passThrough (r.val, st.what.val) st.hdr.toNat c))

/-- REQUEST_TIMEOUT (R315). TOUT expires, so the stop delivers LOST and quarantines the tag. -/
def execRequestTimeout (r : Fin 3) (st : Fin 16) (init : Nat) (tag : BitVec 6) (s : State) : Host.Outcome State Fault Refusal :=
  s.live (fun c => pump (requestTimeout (r.val, st.val) init tag c))

/-- GNTTAB_APPLY (R303). A changed GNTTAB or GNTEN takes effect at the next frame start. -/
def execGnttabApply (r : Fin 3) (s : State) : Host.Outcome State Fault Refusal := s.live (gntApply r.val)

end Sys2Proof.Machine
end

