-- ==== Sys2Proof/Machine/ScalarAlu.lean ====
section
/-!
DEFINITION. The meanings of the commands of scalar arithmetic.
-/
namespace Sys2Proof.Machine

/-- ALU_ADD (R170). Scalar add, writing C and V. -/
def execAluAdd (k : Fin 4) (s : State) : Host.Outcome State Fault Refusal := s.scalar k (.alu 0o0)

/-- ALU_SUB (R170). Scalar subtract. -/
def execAluSub (k : Fin 4) (s : State) : Host.Outcome State Fault Refusal := s.scalar k (.alu 0o1)

/-- ALU_ADDC (R170). Scalar add with carry. -/
def execAluAddc (k : Fin 4) (s : State) : Host.Outcome State Fault Refusal := s.scalar k (.alu 0o2)

/-- ALU_SUBC (R170). Scalar subtract with carry. -/
def execAluSubc (k : Fin 4) (s : State) : Host.Outcome State Fault Refusal := s.scalar k (.alu 0o3)

/-- ALU_NEG (R170). Scalar negate. -/
def execAluNeg (k : Fin 4) (s : State) : Host.Outcome State Fault Refusal := s.scalar k (.alu 0o4)

/-- ALU_AND (R170). Scalar AND. -/
def execAluAnd (k : Fin 4) (s : State) : Host.Outcome State Fault Refusal := s.scalar k (.alu 0o5)

/-- ALU_OR (R170). Scalar OR. -/
def execAluOr (k : Fin 4) (s : State) : Host.Outcome State Fault Refusal := s.scalar k (.alu 0o6)

/-- ALU_XOR (R170). Scalar XOR. -/
def execAluXor (k : Fin 4) (s : State) : Host.Outcome State Fault Refusal := s.scalar k (.alu 0o7)

/-- ALU_ANDN (R170). Scalar a and not b. -/
def execAluAndn (k : Fin 4) (s : State) : Host.Outcome State Fault Refusal := s.scalar k (.alu 0o10)

/-- ALU_ORN (R170). Scalar a or not b. -/
def execAluOrn (k : Fin 4) (s : State) : Host.Outcome State Fault Refusal := s.scalar k (.alu 0o11)

/-- ALU_XNOR (R170). Scalar XNOR. -/
def execAluXnor (k : Fin 4) (s : State) : Host.Outcome State Fault Refusal := s.scalar k (.alu 0o12)

/-- ALU_SLT (R170). Scalar signed set-less-than. -/
def execAluSlt (k : Fin 4) (s : State) : Host.Outcome State Fault Refusal := s.scalar k (.alu 0o13)

/-- ALU_SLTU (R170). Scalar unsigned set-less-than. -/
def execAluSltu (k : Fin 4) (s : State) : Host.Outcome State Fault Refusal := s.scalar k (.alu 0o14)

/-- ALU_MIN (R170). Scalar signed minimum. -/
def execAluMin (k : Fin 4) (s : State) : Host.Outcome State Fault Refusal := s.scalar k (.alu 0o15)

/-- ALU_MAX (R170). Scalar signed maximum. -/
def execAluMax (k : Fin 4) (s : State) : Host.Outcome State Fault Refusal := s.scalar k (.alu 0o16)

/-- ALU_MINU (R170). Scalar unsigned minimum. -/
def execAluMinu (k : Fin 4) (s : State) : Host.Outcome State Fault Refusal := s.scalar k (.alu 0o17)

/-- ALU_MAXU (R170). Scalar unsigned maximum. -/
def execAluMaxu (k : Fin 4) (s : State) : Host.Outcome State Fault Refusal := s.scalar k (.alu 0o20)

/-- SHIFT_SHL (R171). Scalar shift left. -/
def execShiftShl (k : Fin 4) (s : State) : Host.Outcome State Fault Refusal := s.scalar k (.shift 0)

/-- SHIFT_SHR (R171). Scalar logical shift right. -/
def execShiftShr (k : Fin 4) (s : State) : Host.Outcome State Fault Refusal := s.scalar k (.shift 1)

/-- SHIFT_SAR (R171). Scalar arithmetic shift right. -/
def execShiftSar (k : Fin 4) (s : State) : Host.Outcome State Fault Refusal := s.scalar k (.shift 2)

/-- SHIFT_ROL (R171). Scalar rotate left. -/
def execShiftRol (k : Fin 4) (s : State) : Host.Outcome State Fault Refusal := s.scalar k (.shift 3)

/-- SHIFT_ROR (R171). Scalar rotate right. -/
def execShiftRor (k : Fin 4) (s : State) : Host.Outcome State Fault Refusal := s.scalar k (.shift 4)

/-- MULDIV_MUL (R172). Scalar signed low multiply. -/
def execMuldivMul (k : Fin 4) (s : State) : Host.Outcome State Fault Refusal := s.scalar k (.muldiv 0)

/-- MULDIV_MULU (R172). Scalar unsigned low multiply. -/
def execMuldivMulu (k : Fin 4) (s : State) : Host.Outcome State Fault Refusal := s.scalar k (.muldiv 1)

/-- MULDIV_MULF (R172). Scalar signed full multiply into a pair. -/
def execMuldivMulf (k : Fin 4) (s : State) : Host.Outcome State Fault Refusal := s.scalar k (.muldiv 2)

/-- MULDIV_MULFU (R172). Scalar unsigned full multiply into a pair. -/
def execMuldivMulfu (k : Fin 4) (s : State) : Host.Outcome State Fault Refusal := s.scalar k (.muldiv 3)

/-- MULDIV_DIV (R172). Scalar signed word divide. -/
def execMuldivDiv (k : Fin 4) (s : State) : Host.Outcome State Fault Refusal := s.scalar k (.muldiv 4)

/-- MULDIV_DIVU (R172). Scalar unsigned word divide. -/
def execMuldivDivu (k : Fin 4) (s : State) : Host.Outcome State Fault Refusal := s.scalar k (.muldiv 5)

/-- MULDIV_DIVD (R172). Scalar signed double divide. -/
def execMuldivDivd (k : Fin 4) (s : State) : Host.Outcome State Fault Refusal := s.scalar k (.muldiv 6)

/-- MULDIV_DIVDU (R172). Scalar unsigned double divide. -/
def execMuldivDivdu (k : Fin 4) (s : State) : Host.Outcome State Fault Refusal := s.scalar k (.muldiv 7)

/-- FPU_FADD (R174). Scalar floating-point add. -/
def execFpuFadd (k : Fin 4) (s : State) : Host.Outcome State Fault Refusal := s.scalar k (.fpu 0)

/-- FPU_FSUB (R174). Scalar floating-point subtract. -/
def execFpuFsub (k : Fin 4) (s : State) : Host.Outcome State Fault Refusal := s.scalar k (.fpu 1)

/-- FPU_FMUL (R174). Scalar floating-point multiply. -/
def execFpuFmul (k : Fin 4) (s : State) : Host.Outcome State Fault Refusal := s.scalar k (.fpu 2)

/-- FPU_FDIV (R174). Scalar floating-point divide. -/
def execFpuFdiv (k : Fin 4) (s : State) : Host.Outcome State Fault Refusal := s.scalar k (.fpu 3)

/-- FPU_FMA (R174). Scalar fused multiply-add into RD. -/
def execFpuFma (k : Fin 4) (s : State) : Host.Outcome State Fault Refusal := s.scalar k (.fpu 4)

/-- FPU_FCMP (R174). Scalar floating-point compare into a word. -/
def execFpuFcmp (k : Fin 4) (s : State) : Host.Outcome State Fault Refusal := s.scalar k (.fpu 5)

/-- FPU_FNEG (R174). Scalar sign inversion. -/
def execFpuFneg (k : Fin 4) (s : State) : Host.Outcome State Fault Refusal := s.scalar k (.fpu 6)

/-- FPU_FABS (R174). Scalar sign clear. -/
def execFpuFabs (k : Fin 4) (s : State) : Host.Outcome State Fault Refusal := s.scalar k (.fpu 7)

/-- FCVT_INT_TO_BINARY32 (R175). Converts an integer to binary32. -/
def execFcvtIntToBinary32 (k : Fin 4) (s : State) : Host.Outcome State Fault Refusal := s.scalar k (.fcvt 0)

/-- FCVT_INT_TO_BINARY64 (R175). Converts an integer to binary64. -/
def execFcvtIntToBinary64 (k : Fin 4) (s : State) : Host.Outcome State Fault Refusal := s.scalar k (.fcvt 1)

/-- FCVT_BINARY32_TO_INT (R175). Converts binary32 to an integer. -/
def execFcvtBinary32ToInt (k : Fin 4) (s : State) : Host.Outcome State Fault Refusal := s.scalar k (.fcvt 2)

/-- FCVT_BINARY64_TO_INT (R175). Converts binary64 to an integer. -/
def execFcvtBinary64ToInt (k : Fin 4) (s : State) : Host.Outcome State Fault Refusal := s.scalar k (.fcvt 3)

/-- FCVT_BINARY32_TO_BINARY64 (R175). Widens binary32 to binary64. -/
def execFcvtBinary32ToBinary64 (k : Fin 4) (s : State) : Host.Outcome State Fault Refusal := s.scalar k (.fcvt 4)

/-- FCVT_BINARY64_TO_BINARY32 (R175). Narrows binary64 to binary32. -/
def execFcvtBinary64ToBinary32 (k : Fin 4) (s : State) : Host.Outcome State Fault Refusal := s.scalar k (.fcvt 5)

/-- ADDI (R173). Add immediate, writing C and V. -/
def execScAddi (k : Fin 4) (s : State) : Host.Outcome State Fault Refusal := s.scalar k (.imm 0o020)

/-- ANDI (R173). AND with immediate. -/
def execScAndi (k : Fin 4) (s : State) : Host.Outcome State Fault Refusal := s.scalar k (.imm 0o021)

/-- ORI (R173). OR with immediate. -/
def execScOri (k : Fin 4) (s : State) : Host.Outcome State Fault Refusal := s.scalar k (.imm 0o022)

/-- XORI (R173). XOR with immediate. -/
def execScXori (k : Fin 4) (s : State) : Host.Outcome State Fault Refusal := s.scalar k (.imm 0o023)

/-- SLTI (R173). Signed set-less-than immediate. -/
def execScSlti (k : Fin 4) (s : State) : Host.Outcome State Fault Refusal := s.scalar k (.imm 0o024)

/-- SLTIU (R173). Unsigned set-less-than immediate. -/
def execScSltiu (k : Fin 4) (s : State) : Host.Outcome State Fault Refusal := s.scalar k (.imm 0o025)

/-- LUI (R173). Loads IMM into bits [35:17]. -/
def execScLui (k : Fin 4) (s : State) : Host.Outcome State Fault Refusal := s.scalar k (.imm 0o026)

end Sys2Proof.Machine
end

