-- ==== Sys2Proof/Machine/ScalarControl.lean ====
section
/-!
DEFINITION. The meanings of the commands of scalar control flow, traps, cores and watchdogs.
-/
namespace Sys2Proof.Machine

/-- BEQ (R182). Branches if equal. -/
def execScBeq (k : Fin 4) (s : State) : Host.Outcome State Fault Refusal := s.scalar k (.branch 0o050)

/-- BNE (R182). Branches if not equal. -/
def execScBne (k : Fin 4) (s : State) : Host.Outcome State Fault Refusal := s.scalar k (.branch 0o051)

/-- BLT (R182). Branches if less, signed. -/
def execScBlt (k : Fin 4) (s : State) : Host.Outcome State Fault Refusal := s.scalar k (.branch 0o052)

/-- BGE (R182). Branches if greater or equal, signed. -/
def execScBge (k : Fin 4) (s : State) : Host.Outcome State Fault Refusal := s.scalar k (.branch 0o053)

/-- BLTU (R182). Branches if less, unsigned. -/
def execScBltu (k : Fin 4) (s : State) : Host.Outcome State Fault Refusal := s.scalar k (.branch 0o054)

/-- BGEU (R182). Branches if greater or equal, unsigned. -/
def execScBgeu (k : Fin 4) (s : State) : Host.Outcome State Fault Refusal := s.scalar k (.branch 0o055)

/-- J (R182). Jumps to 4 × TGT. -/
def execScJ (k : Fin 4) (s : State) : Host.Outcome State Fault Refusal := s.scalar k .j

/-- JAL (R182). Jumps and links in W31. -/
def execScJal (k : Fin 4) (s : State) : Host.Outcome State Fault Refusal := s.scalar k .jal

/-- JALR (R182). Jumps to a register target and links. -/
def execScJalr (k : Fin 4) (s : State) : Host.Outcome State Fault Refusal := s.scalar k .jalr

/-- LOOP (R183). Starts a hardware loop or skips its body. -/
def execScLoop (k : Fin 4) (s : State) : Host.Outcome State Fault Refusal := s.scalar k .loop

/-- NOP (R184). Does nothing. -/
def execScNop (k : Fin 4) (s : State) : Host.Outcome State Fault Refusal := s.scalar k (.sys 0)

/-- MFS (R184). Reads a special register, waiting where its rules require. -/
def execScMfs (k : Fin 4) (s : State) : Host.Outcome State Fault Refusal := s.scalar k (.sys 1)

/-- MTS (R165). Writes a special register. -/
def execScMts (k : Fin 4) (s : State) : Host.Outcome State Fault Refusal := s.scalar k (.sys 2)

/-- TRAP (R184). Raises a software trap. -/
def execScTrap (k : Fin 4) (s : State) : Host.Outcome State Fault Refusal := s.scalar k (.sys 3)

/-- RTI (R197). Returns from a trap, restoring PC and PSW. -/
def execScRti (k : Fin 4) (s : State) : Host.Outcome State Fault Refusal := s.scalar k (.sys 4)

/-- WAIT (R185). Waits for an interrupt at or above IPL. -/
def execScWait (k : Fin 4) (s : State) : Host.Outcome State Fault Refusal := s.scalar k (.sys 5)

/-- FENCE (R178). Waits until earlier loads and stores complete. -/
def execScFence (k : Fin 4) (s : State) : Host.Outcome State Fault Refusal := s.scalar k (.sys 6)

/-- IFENCE (R179). Fences and discards prefetched words. -/
def execScIfence (k : Fin 4) (s : State) : Host.Outcome State Fault Refusal := s.scalar k (.sys 7)

/-- AFENCE (R184). Waits until the issue queue is empty and the array has finished. -/
def execScAfence (k : Fin 4) (s : State) : Host.Outcome State Fault Refusal := s.scalar k (.sys 8)

/-- BRK (R184). Breakpoint trap, or debug halt when BRKEN is set. -/
def execScBrk (k : Fin 4) (s : State) : Host.Outcome State Fault Refusal := s.scalar k (.sys 9)

/-- COP (R191). Sends a coprocessor request to the bound tile and waits for the reply. -/
def execScCop (k : Fin 4) (s : State) : Host.Outcome State Fault Refusal := s.scalar k .cop

/-- COP_TIMEOUT (R192). No reply within 65,536 core cycles raises the coprocessor-error trap. -/
def execCopTimeout (k : Fin 4) (s : State) : Host.Outcome State Fault Refusal := s.live (copTimeout k.val)

/-- INTERRUPT_ENTRY (R198). At a boundary with IE = 1, the highest asserted level at or above IPL is taken. -/
def execInterruptEntry (k : Fin 4) (s : State) : Host.Outcome State Fault Refusal := s.live (interruptStep k.val)

/-- MACHINE_CHECK_ENTRY (R200). A pending machine check is taken at the next instruction boundary. -/
def execMachineCheckEntry (k : Fin 4) (s : State) : Host.Outcome State Fault Refusal := s.live (machineCheckStep k.val)

/-- BW_RUN_RELEASE (R203). A write of RUN := 1 releases a held core at RESETPC. -/
def execBwRunRelease (who : Who) (k : Fin 4) (s : State) : Host.Outcome State Fault Refusal := s.write who (pgBw k.val) 2 1

/-- BW_RUN_STOP (R536). A write of RUN := 0 stops fetch and lets issued array instructions finish or be discarded. -/
def execBwRunStop (who : Who) (k : Fin 4) (s : State) : Host.Outcome State Fault Refusal := s.write who (pgBw k.val) 2 0

/-- CORE_RESET_HOLD (R166). Once the array work has ended, the core is reset and held. -/
def execCoreResetHold (k : Fin 4) (s : State) : Host.Outcome State Fault Refusal := s.live (coreResetHold k.val)

/-- WATCHDOG_EXPIRY (R206). COUNT reaches zero and is reloaded, and the watchdog warns or bites. -/
def execWatchdogExpiry (k : Fin 4) (s : State) : Host.Outcome State Fault Refusal := s.live (wdgExpiry k.val)

/-- WDG_KICK (R205). A KICK reloads COUNT and clears STAGE. -/
def execWdgKick (who : Who) (k : Fin 4) (s : State) : Host.Outcome State Fault Refusal := s.write who (pgWdg k.val) 18 1

/-- WDG_PERIOD_WRITE (R205). A write of PERIOD also sets COUNT. -/
def execWdgPeriodWrite (who : Who) (k : Fin 4) (v : Word) (s : State) : Host.Outcome State Fault Refusal := s.write who (pgWdg k.val) 16 v

/-- UNASSIGNED_OPCODE (R168). The core fetches a word with an unassigned scalar or array opcode and raises ILLEGAL. -/
def execUnassignedOpcode (k : Fin 4) (s : State) : Host.Outcome State Fault Refusal := s.live (coreStep k.val none)

end Sys2Proof.Machine
end

