-- ==== Sys2Proof/Machine/ScalarMemory.lean ====
section
/-!
DEFINITION. The meanings of the commands of scalar loads, stores and atomics.
-/
namespace Sys2Proof.Machine

/-- LDR (R180). Loads a word and reserves it. -/
def execScLdr (k : Fin 4) (s : State) : Host.Outcome State Fault Refusal := s.scalar k (.atom 0)

/-- STC (R181). Stores conditionally on the reservation and clears it. -/
def execScStc (k : Fin 4) (s : State) : Host.Outcome State Fault Refusal := s.scalar k (.atom 1)

/-- AADD (R180). Atomic add at a scratch-bank word. -/
def execScAadd (k : Fin 4) (s : State) : Host.Outcome State Fault Refusal := s.scalar k (.atom 2)

/-- ASWAP (R180). Atomic swap at a scratch-bank word. -/
def execScAswap (k : Fin 4) (s : State) : Host.Outcome State Fault Refusal := s.scalar k (.atom 3)

/-- LDN (R176). Loads a nonet, zero-extended. -/
def execScLdn (k : Fin 4) (s : State) : Host.Outcome State Fault Refusal := s.scalar k (.load 0o030)

/-- LDNS (R176). Loads a nonet, sign-extended. -/
def execScLdns (k : Fin 4) (s : State) : Host.Outcome State Fault Refusal := s.scalar k (.load 0o031)

/-- LDH (R176). Loads a half, zero-extended. -/
def execScLdh (k : Fin 4) (s : State) : Host.Outcome State Fault Refusal := s.scalar k (.load 0o032)

/-- LDHS (R176). Loads a half, sign-extended. -/
def execScLdhs (k : Fin 4) (s : State) : Host.Outcome State Fault Refusal := s.scalar k (.load 0o033)

/-- LDW (R176). Loads a word. -/
def execScLdw (k : Fin 4) (s : State) : Host.Outcome State Fault Refusal := s.scalar k (.load 0o034)

/-- LDD (R176). Loads a double into a pair. -/
def execScLdd (k : Fin 4) (s : State) : Host.Outcome State Fault Refusal := s.scalar k (.load 0o035)

/-- STN (R176). Stores a nonet. -/
def execScStn (k : Fin 4) (s : State) : Host.Outcome State Fault Refusal := s.scalar k (.store 0o040)

/-- STH (R176). Stores a half. -/
def execScSth (k : Fin 4) (s : State) : Host.Outcome State Fault Refusal := s.scalar k (.store 0o041)

/-- STW (R176). Stores a word. -/
def execScStw (k : Fin 4) (s : State) : Host.Outcome State Fault Refusal := s.scalar k (.store 0o042)

/-- STD (R176). Stores a double. -/
def execScStd (k : Fin 4) (s : State) : Host.Outcome State Fault Refusal := s.scalar k (.store 0o043)

end Sys2Proof.Machine
end

