-- ==== Sys2Proof/Machine/ThonosCommands.lean ====
section
/-!
DEFINITION. The meanings of the commands of Thonos.
-/
namespace Sys2Proof.Machine

/-- DEVINFO (R482). Thonos returns the device information response. -/
def execDevInfo (s : State) : Host.Outcome State Fault Refusal := s.live (thonosCommand 1 devInfo)

/-- UPDATE (R481). Thonos verifies a staged image and programs a flash slot. -/
def execUpdate (flash : BitVec 2) (s : State) : Host.Outcome State Fault Refusal := s.live (thonosCommand 2 (update flash))

/-- ARBCOMMIT (R475). Blows ARC fuses up to the booted ARV. -/
def execArbCommit (s : State) : Host.Outcome State Fault Refusal := s.live (thonosCommand 3 arbCommit)

/-- LIFECYCLE (R477). Makes a signed lifecycle transition and resets the device. -/
def execLifecycle (s : State) : Host.Outcome State Fault Refusal := s.live (thonosCommand 4 lifecycle)

/-- REVOKE (R474). Blows the REVOKE bit of a key slot. -/
def execRevoke (s : State) : Host.Outcome State Fault Refusal := s.live (thonosCommand 5 revoke)

/-- ATTEST (R483). Returns a signed attestation report. -/
def execAttest (s : State) : Host.Outcome State Fault Refusal := s.live (thonosCommand 6 attest)

/-- DBGCHAL (R484). Draws a fresh debug nonce. -/
def execDbgChal (s : State) : Host.Outcome State Fault Refusal := s.live (thonosCommand 7 dbgChal)

/-- DBGRESP (R484). Checks a signed debug response and unlocks debug. -/
def execDbgResp (s : State) : Host.Outcome State Fault Refusal := s.live (thonosCommand 8 dbgResp)

/-- DBGPASS (R484). Checks the vendor debug password in VENDOR. -/
def execDbgPass (s : State) : Host.Outcome State Fault Refusal := s.live (thonosCommand 9 dbgPass)

/-- RELOCK (R484). Locks debug. -/
def execRelock (s : State) : Host.Outcome State Fault Refusal := s.live (thonosCommand 10 relock)

/-- NONCE_EXPIRY (R484). The open nonce expires after 2^35 TALLY ticks. -/
def execNonceExpiry (s : State) : Host.Outcome State Fault Refusal := s.live nonceExpiry

/-- TAMPER_RESPONSE (R486). An active tamper source locks debug, wipes the secure bank and logs it. -/
def execTamperResponse (src : BitVec 2) (s : State) : Host.Outcome State Fault Refusal := s.aon (tamper src)

/-- TAMPER_CLEAR (R486). A tamper source clears, so TACT falls and a new response is possible. -/
def execTamperClear (src : BitVec 2) (s : State) : Host.Outcome State Fault Refusal := s.aon (tamperClear src)

end Sys2Proof.Machine
end

