-- ==== Sys2Proof/Machine/Dispatch.lean ====
section
/-!
DEFINITION. The dispatcher: one arm per constructor of Instr, each a direct call of its meaning.
-/
namespace Sys2Proof.Machine

def exec (i : Instr) (s : State) : Host.Outcome State Fault Refusal :=
  match i with
  | .registerWrite who p slot v => Sys2Proof.Machine.execRegisterWrite who p slot v s
  | .evSet who p ev => Sys2Proof.Machine.execEvSet who p ev s
  | .evl p => Sys2Proof.Machine.execEvl p s
  | .perturbApply p => Sys2Proof.Machine.execPerturbApply p s
  | .hostMemWrite f bar off data poison => Sys2Proof.Machine.execHostMemWrite f bar off data poison s
  | .hostMemRead f bar off len => Sys2Proof.Machine.execHostMemRead f bar off len s
  | .msixTableAccess f off write len => Sys2Proof.Machine.execMsixTableAccess f off write len s
  | .beatFrame f err => Sys2Proof.Machine.execBeatFrame f err s
  | .beat k => Sys2Proof.Machine.execBeat k s
  | .foldStall f => Sys2Proof.Machine.execFoldStall f s
  | .portAccess die p ch => Sys2Proof.Machine.execPortAccess die p ch s
  | .planeClearDone => Sys2Proof.Machine.execPlaneClearDone s
  | .reductionDeliver k => Sys2Proof.Machine.execReductionDeliver k s
  | .arrLogic k => Sys2Proof.Machine.execArrLogic k s
  | .arrRlog k => Sys2Proof.Machine.execArrRlog k s
  | .arrAdd k => Sys2Proof.Machine.execArrAdd k s
  | .arrSub k => Sys2Proof.Machine.execArrSub k s
  | .arrAddc k => Sys2Proof.Machine.execArrAddc k s
  | .arrNeg k => Sys2Proof.Machine.execArrNeg k s
  | .arrAdds k => Sys2Proof.Machine.execArrAdds k s
  | .arrSubs k => Sys2Proof.Machine.execArrSubs k s
  | .arrShl k => Sys2Proof.Machine.execArrShl k s
  | .arrShr k => Sys2Proof.Machine.execArrShr k s
  | .arrRot k => Sys2Proof.Machine.execArrRot k s
  | .arrMul k => Sys2Proof.Machine.execArrMul k s
  | .arrDiv k => Sys2Proof.Machine.execArrDiv k s
  | .arrGadd k => Sys2Proof.Machine.execArrGadd k s
  | .arrGsub k => Sys2Proof.Machine.execArrGsub k s
  | .arrGadds k => Sys2Proof.Machine.execArrGadds k s
  | .arrGneg k => Sys2Proof.Machine.execArrGneg k s
  | .arrGshl k => Sys2Proof.Machine.execArrGshl k s
  | .arrGshr k => Sys2Proof.Machine.execArrGshr k s
  | .arrGrot k => Sys2Proof.Machine.execArrGrot k s
  | .arrGmul k => Sys2Proof.Machine.execArrGmul k s
  | .arrGdiv k => Sys2Proof.Machine.execArrGdiv k s
  | .arrCmp k => Sys2Proof.Machine.execArrCmp k s
  | .arrCmps k => Sys2Proof.Machine.execArrCmps k s
  | .arrGcmp k => Sys2Proof.Machine.execArrGcmp k s
  | .arrGcmps k => Sys2Proof.Machine.execArrGcmps k s
  | .arrMax k => Sys2Proof.Machine.execArrMax k s
  | .arrMin k => Sys2Proof.Machine.execArrMin k s
  | .arrMset k => Sys2Proof.Machine.execArrMset k s
  | .arrMld k => Sys2Proof.Machine.execArrMld k s
  | .arrMst k => Sys2Proof.Machine.execArrMst k s
  | .arrMand k => Sys2Proof.Machine.execArrMand k s
  | .arrMpush k => Sys2Proof.Machine.execArrMpush k s
  | .arrMpop k => Sys2Proof.Machine.execArrMpop k s
  | .arrMelse k => Sys2Proof.Machine.execArrMelse k s
  | .arrMove k => Sys2Proof.Machine.execArrMove k s
  | .arrRowb k => Sys2Proof.Machine.execArrRowb k s
  | .arrColb k => Sys2Proof.Machine.execArrColb k s
  | .arrBcast k => Sys2Proof.Machine.execArrBcast k s
  | .arrGbcast k => Sys2Proof.Machine.execArrGbcast k s
  | .arrFadd k => Sys2Proof.Machine.execArrFadd k s
  | .arrFsub k => Sys2Proof.Machine.execArrFsub k s
  | .arrFmul k => Sys2Proof.Machine.execArrFmul k s
  | .arrFdiv k => Sys2Proof.Machine.execArrFdiv k s
  | .arrFma k => Sys2Proof.Machine.execArrFma k s
  | .arrFcmp k => Sys2Proof.Machine.execArrFcmp k s
  | .arrBell k => Sys2Proof.Machine.execArrBell k s
  | .arrCount k => Sys2Proof.Machine.execArrCount k s
  | .arrFirst k => Sys2Proof.Machine.execArrFirst k s
  | .arrTwist k => Sys2Proof.Machine.execArrTwist k s
  | .arrPfence k => Sys2Proof.Machine.execArrPfence k s
  | .arrPres k => Sys2Proof.Machine.execArrPres k s
  | .aluAdd k => Sys2Proof.Machine.execAluAdd k s
  | .aluSub k => Sys2Proof.Machine.execAluSub k s
  | .aluAddc k => Sys2Proof.Machine.execAluAddc k s
  | .aluSubc k => Sys2Proof.Machine.execAluSubc k s
  | .aluNeg k => Sys2Proof.Machine.execAluNeg k s
  | .aluAnd k => Sys2Proof.Machine.execAluAnd k s
  | .aluOr k => Sys2Proof.Machine.execAluOr k s
  | .aluXor k => Sys2Proof.Machine.execAluXor k s
  | .aluAndn k => Sys2Proof.Machine.execAluAndn k s
  | .aluOrn k => Sys2Proof.Machine.execAluOrn k s
  | .aluXnor k => Sys2Proof.Machine.execAluXnor k s
  | .aluSlt k => Sys2Proof.Machine.execAluSlt k s
  | .aluSltu k => Sys2Proof.Machine.execAluSltu k s
  | .aluMin k => Sys2Proof.Machine.execAluMin k s
  | .aluMax k => Sys2Proof.Machine.execAluMax k s
  | .aluMinu k => Sys2Proof.Machine.execAluMinu k s
  | .aluMaxu k => Sys2Proof.Machine.execAluMaxu k s
  | .shiftShl k => Sys2Proof.Machine.execShiftShl k s
  | .shiftShr k => Sys2Proof.Machine.execShiftShr k s
  | .shiftSar k => Sys2Proof.Machine.execShiftSar k s
  | .shiftRol k => Sys2Proof.Machine.execShiftRol k s
  | .shiftRor k => Sys2Proof.Machine.execShiftRor k s
  | .muldivMul k => Sys2Proof.Machine.execMuldivMul k s
  | .muldivMulu k => Sys2Proof.Machine.execMuldivMulu k s
  | .muldivMulf k => Sys2Proof.Machine.execMuldivMulf k s
  | .muldivMulfu k => Sys2Proof.Machine.execMuldivMulfu k s
  | .muldivDiv k => Sys2Proof.Machine.execMuldivDiv k s
  | .muldivDivu k => Sys2Proof.Machine.execMuldivDivu k s
  | .muldivDivd k => Sys2Proof.Machine.execMuldivDivd k s
  | .muldivDivdu k => Sys2Proof.Machine.execMuldivDivdu k s
  | .fpuFadd k => Sys2Proof.Machine.execFpuFadd k s
  | .fpuFsub k => Sys2Proof.Machine.execFpuFsub k s
  | .fpuFmul k => Sys2Proof.Machine.execFpuFmul k s
  | .fpuFdiv k => Sys2Proof.Machine.execFpuFdiv k s
  | .fpuFma k => Sys2Proof.Machine.execFpuFma k s
  | .fpuFcmp k => Sys2Proof.Machine.execFpuFcmp k s
  | .fpuFneg k => Sys2Proof.Machine.execFpuFneg k s
  | .fpuFabs k => Sys2Proof.Machine.execFpuFabs k s
  | .fcvtIntToBinary32 k => Sys2Proof.Machine.execFcvtIntToBinary32 k s
  | .fcvtIntToBinary64 k => Sys2Proof.Machine.execFcvtIntToBinary64 k s
  | .fcvtBinary32ToInt k => Sys2Proof.Machine.execFcvtBinary32ToInt k s
  | .fcvtBinary64ToInt k => Sys2Proof.Machine.execFcvtBinary64ToInt k s
  | .fcvtBinary32ToBinary64 k => Sys2Proof.Machine.execFcvtBinary32ToBinary64 k s
  | .fcvtBinary64ToBinary32 k => Sys2Proof.Machine.execFcvtBinary64ToBinary32 k s
  | .scLdr k => Sys2Proof.Machine.execScLdr k s
  | .scStc k => Sys2Proof.Machine.execScStc k s
  | .scAadd k => Sys2Proof.Machine.execScAadd k s
  | .scAswap k => Sys2Proof.Machine.execScAswap k s
  | .scAddi k => Sys2Proof.Machine.execScAddi k s
  | .scAndi k => Sys2Proof.Machine.execScAndi k s
  | .scOri k => Sys2Proof.Machine.execScOri k s
  | .scXori k => Sys2Proof.Machine.execScXori k s
  | .scSlti k => Sys2Proof.Machine.execScSlti k s
  | .scSltiu k => Sys2Proof.Machine.execScSltiu k s
  | .scLui k => Sys2Proof.Machine.execScLui k s
  | .scLdn k => Sys2Proof.Machine.execScLdn k s
  | .scLdns k => Sys2Proof.Machine.execScLdns k s
  | .scLdh k => Sys2Proof.Machine.execScLdh k s
  | .scLdhs k => Sys2Proof.Machine.execScLdhs k s
  | .scLdw k => Sys2Proof.Machine.execScLdw k s
  | .scLdd k => Sys2Proof.Machine.execScLdd k s
  | .scStn k => Sys2Proof.Machine.execScStn k s
  | .scSth k => Sys2Proof.Machine.execScSth k s
  | .scStw k => Sys2Proof.Machine.execScStw k s
  | .scStd k => Sys2Proof.Machine.execScStd k s
  | .scBeq k => Sys2Proof.Machine.execScBeq k s
  | .scBne k => Sys2Proof.Machine.execScBne k s
  | .scBlt k => Sys2Proof.Machine.execScBlt k s
  | .scBge k => Sys2Proof.Machine.execScBge k s
  | .scBltu k => Sys2Proof.Machine.execScBltu k s
  | .scBgeu k => Sys2Proof.Machine.execScBgeu k s
  | .scJ k => Sys2Proof.Machine.execScJ k s
  | .scJal k => Sys2Proof.Machine.execScJal k s
  | .scJalr k => Sys2Proof.Machine.execScJalr k s
  | .scLoop k => Sys2Proof.Machine.execScLoop k s
  | .scNop k => Sys2Proof.Machine.execScNop k s
  | .scMfs k => Sys2Proof.Machine.execScMfs k s
  | .scMts k => Sys2Proof.Machine.execScMts k s
  | .scTrap k => Sys2Proof.Machine.execScTrap k s
  | .scRti k => Sys2Proof.Machine.execScRti k s
  | .scWait k => Sys2Proof.Machine.execScWait k s
  | .scFence k => Sys2Proof.Machine.execScFence k s
  | .scIfence k => Sys2Proof.Machine.execScIfence k s
  | .scAfence k => Sys2Proof.Machine.execScAfence k s
  | .scBrk k => Sys2Proof.Machine.execScBrk k s
  | .scCop k => Sys2Proof.Machine.execScCop k s
  | .copTimeout k => Sys2Proof.Machine.execCopTimeout k s
  | .interruptEntry k => Sys2Proof.Machine.execInterruptEntry k s
  | .machineCheckEntry k => Sys2Proof.Machine.execMachineCheckEntry k s
  | .bwRunRelease who k => Sys2Proof.Machine.execBwRunRelease who k s
  | .bwRunStop who k => Sys2Proof.Machine.execBwRunStop who k s
  | .coreResetHold k => Sys2Proof.Machine.execCoreResetHold k s
  | .watchdogExpiry k => Sys2Proof.Machine.execWatchdogExpiry k s
  | .wdgKick who k => Sys2Proof.Machine.execWdgKick who k s
  | .wdgPeriodWrite who k v => Sys2Proof.Machine.execWdgPeriodWrite who k v s
  | .csdataCommit who k v => Sys2Proof.Machine.execCsdataCommit who k v s
  | .mseqStart k => Sys2Proof.Machine.execMseqStart k s
  | .microCont k => Sys2Proof.Machine.execMicroCont k s
  | .microCall k => Sys2Proof.Machine.execMicroCall k s
  | .microRet k => Sys2Proof.Machine.execMicroRet k s
  | .microEnd k => Sys2Proof.Machine.execMicroEnd k s
  | .microWaitb k => Sys2Proof.Machine.execMicroWaitb k s
  | .preempt who k => Sys2Proof.Machine.execPreempt who k s
  | .preemptTakeEffect k => Sys2Proof.Machine.execPreemptTakeEffect k s
  | .mseqResume who k => Sys2Proof.Machine.execMseqResume who k s
  | .mseqDiscard who k => Sys2Proof.Machine.execMseqDiscard who k s
  | .mseqSave who k => Sys2Proof.Machine.execMseqSave who k s
  | .mseqRestore who k => Sys2Proof.Machine.execMseqRestore who k s
  | .voteCompare cop => Sys2Proof.Machine.execVoteCompare cop s
  | .voteWindowExpiry cop => Sys2Proof.Machine.execVoteWindowExpiry cop s
  | .ctuChstart who die p mask => Sys2Proof.Machine.execCtuChstart who die p mask s
  | .ctuChabort who die p mask => Sys2Proof.Machine.execCtuChabort who die p mask s
  | .slotGrant die p ch => Sys2Proof.Machine.execSlotGrant die p ch s
  | .descriptorFetchDone die p ch => Sys2Proof.Machine.execDescriptorFetchDone die p ch s
  | .reservationPlace die p ch => Sys2Proof.Machine.execReservationPlace die p ch s
  | .stagingFill die p ch sev => Sys2Proof.Machine.execStagingFill die p ch sev s
  | .reservationClear die p ch => Sys2Proof.Machine.execReservationClear die p ch s
  | .channelComplete die p ch => Sys2Proof.Machine.execChannelComplete die p ch s
  | .ctuGone die p ch => Sys2Proof.Machine.execCtuGone die p ch s
  | .hbmRequest die q => Sys2Proof.Machine.execHbmRequest die q s
  | .hbmRefresh die m bank => Sys2Proof.Machine.execHbmRefresh die m bank s
  | .bankAccess b owner ring => Sys2Proof.Machine.execBankAccess b owner ring s
  | .btestRegion b fails => Sys2Proof.Machine.execBtestRegion b fails s
  | .bankPdown who b => Sys2Proof.Machine.execBankPdown who b s
  | .bankOff b => Sys2Proof.Machine.execBankOff b s
  | .bankWake who b => Sys2Proof.Machine.execBankWake who b s
  | .bankClearDone b => Sys2Proof.Machine.execBankClearDone b s
  | .secureWipeDone => Sys2Proof.Machine.execSecureWipeDone s
  | .ringRd q sev => Sys2Proof.Machine.execRingRd q sev s
  | .ringWr q sev => Sys2Proof.Machine.execRingWr q sev s
  | .ringWrp q sev => Sys2Proof.Machine.execRingWrp q sev s
  | .ringAadd q => Sys2Proof.Machine.execRingAadd q s
  | .ringAswap q => Sys2Proof.Machine.execRingAswap q s
  | .ringLdr q => Sys2Proof.Machine.execRingLdr q s
  | .ringStc q => Sys2Proof.Machine.execRingStc q s
  | .ringCop k => Sys2Proof.Machine.execRingCop k s
  | .ringData r st lat => Sys2Proof.Machine.execRingData r st lat s
  | .ringAck r st lat => Sys2Proof.Machine.execRingAck r st lat s
  | .ringCopr k lat => Sys2Proof.Machine.execRingCopr k lat s
  | .strm q => Sys2Proof.Machine.execStrm q s
  | .orderingProbe q => Sys2Proof.Machine.execOrderingProbe q s
  | .xrCrossing opc q => Sys2Proof.Machine.execXrCrossing opc q s
  | .stopReconfSet who r st => Sys2Proof.Machine.execStopReconfSet who r st s
  | .stopEnterPass r st => Sys2Proof.Machine.execStopEnterPass r st s
  | .stopReconfClear who r st => Sys2Proof.Machine.execStopReconfClear who r st s
  | .passThrough r st => Sys2Proof.Machine.execPassThrough r st s
  | .requestTimeout r st init tag => Sys2Proof.Machine.execRequestTimeout r st init tag s
  | .gnttabApply r => Sys2Proof.Machine.execGnttabApply r s
  | .tileLoad who t => Sys2Proof.Machine.execTileLoad who t s
  | .tileLoadDone t => Sys2Proof.Machine.execTileLoadDone t s
  | .tileUnload who t => Sys2Proof.Machine.execTileUnload who t s
  | .tileGo who t mask => Sys2Proof.Machine.execTileGo who t mask s
  | .cellPass t n => Sys2Proof.Machine.execCellPass t n s
  | .cellAdd t n => Sys2Proof.Machine.execCellAdd t n s
  | .cellAddc t n => Sys2Proof.Machine.execCellAddc t n s
  | .cellSub t n => Sys2Proof.Machine.execCellSub t n s
  | .cellSubc t n => Sys2Proof.Machine.execCellSubc t n s
  | .cellAnd t n => Sys2Proof.Machine.execCellAnd t n s
  | .cellOr t n => Sys2Proof.Machine.execCellOr t n s
  | .cellXor t n => Sys2Proof.Machine.execCellXor t n s
  | .cellAndn t n => Sys2Proof.Machine.execCellAndn t n s
  | .cellShl t n => Sys2Proof.Machine.execCellShl t n s
  | .cellShr t n => Sys2Proof.Machine.execCellShr t n s
  | .cellSar t n => Sys2Proof.Machine.execCellSar t n s
  | .cellRol t n => Sys2Proof.Machine.execCellRol t n s
  | .cellLit t n => Sys2Proof.Machine.execCellLit t n s
  | .cellLith t n => Sys2Proof.Machine.execCellLith t n s
  | .cellEq t n => Sys2Proof.Machine.execCellEq t n s
  | .cellLtu t n => Sys2Proof.Machine.execCellLtu t n s
  | .cellLts t n => Sys2Proof.Machine.execCellLts t n s
  | .cellMull t n => Sys2Proof.Machine.execCellMull t n s
  | .cellMulh t n => Sys2Proof.Machine.execCellMulh t n s
  | .cellSel t n => Sys2Proof.Machine.execCellSel t n s
  | .cellMxc t n => Sys2Proof.Machine.execCellMxc t n s
  | .cellExt t n => Sys2Proof.Machine.execCellExt t n s
  | .cellDep t n => Sys2Proof.Machine.execCellDep t n s
  | .cellPopc t n => Sys2Proof.Machine.execCellPopc t n s
  | .putCpok t n => Sys2Proof.Machine.execPutCpok t n s
  | .putCperr t n => Sys2Proof.Machine.execPutCperr t n s
  | .putSout t n => Sys2Proof.Machine.execPutSout t n s
  | .putSpop t n => Sys2Proof.Machine.execPutSpop t n s
  | .putSoutf t n => Sys2Proof.Machine.execPutSoutf t n s
  | .copCurrent t => Sys2Proof.Machine.execCopCurrent t s
  | .tileUnfreeze t => Sys2Proof.Machine.execTileUnfreeze t s
  | .treeClockChange t r => Sys2Proof.Machine.execTreeClockChange t r s
  | .tileDomainOff who t => Sys2Proof.Machine.execTileDomainOff who t s
  | .tileDomainOn who t => Sys2Proof.Machine.execTileDomainOn who t s
  | .collieDomainOff who e => Sys2Proof.Machine.execCollieDomainOff who e s
  | .collieDomainOn who e => Sys2Proof.Machine.execCollieDomainOn who e s
  | .collieChstart who e mask => Sys2Proof.Machine.execCollieChstart who e mask s
  | .collieEntryLoaded e h => Sys2Proof.Machine.execCollieEntryLoaded e h s
  | .collieSho e h => Sys2Proof.Machine.execCollieSho e h s
  | .collieShi e h => Sys2Proof.Machine.execCollieShi e h s
  | .collieShb e h => Sys2Proof.Machine.execCollieShb e h s
  | .colliePin e h => Sys2Proof.Machine.execColliePin e h s
  | .collieWaitp e h => Sys2Proof.Machine.execCollieWaitp e h s
  | .collieWaitf e h => Sys2Proof.Machine.execCollieWaitf e h s
  | .collieWaite e h => Sys2Proof.Machine.execCollieWaite e h s
  | .collieSetf e h => Sys2Proof.Machine.execCollieSetf e h s
  | .collieAt e h => Sys2Proof.Machine.execCollieAt e h s
  | .collieLdi e h => Sys2Proof.Machine.execCollieLdi e h s
  | .collieAddi e h => Sys2Proof.Machine.execCollieAddi e h s
  | .collieJmp e h => Sys2Proof.Machine.execCollieJmp e h s
  | .collieLoop e h => Sys2Proof.Machine.execCollieLoop e h s
  | .collieLoopg e h => Sys2Proof.Machine.execCollieLoopg e h s
  | .colliePull e h => Sys2Proof.Machine.execColliePull e h s
  | .colliePush e h => Sys2Proof.Machine.execColliePush e h s
  | .collieMov e h => Sys2Proof.Machine.execCollieMov e h s
  | .collieAdd e h => Sys2Proof.Machine.execCollieAdd e h s
  | .collieSub e h => Sys2Proof.Machine.execCollieSub e h s
  | .collieAnd e h => Sys2Proof.Machine.execCollieAnd e h s
  | .collieOr e h => Sys2Proof.Machine.execCollieOr e h s
  | .collieXor e h => Sys2Proof.Machine.execCollieXor e h s
  | .collieNot e h => Sys2Proof.Machine.execCollieNot e h s
  | .collieStampw e h => Sys2Proof.Machine.execCollieStampw e h s
  | .collieStampa e h => Sys2Proof.Machine.execCollieStampa e h s
  | .collieTake e h => Sys2Proof.Machine.execCollieTake e h s
  | .collieSig e h => Sys2Proof.Machine.execCollieSig e h s
  | .collieEnd e h => Sys2Proof.Machine.execCollieEnd e h s
  | .collieTime e h => Sys2Proof.Machine.execCollieTime e h s
  | .collieFlusho e h => Sys2Proof.Machine.execCollieFlusho e h s
  | .collieCmpu e h => Sys2Proof.Machine.execCollieCmpu e h s
  | .collieStep e h ext => Sys2Proof.Machine.execCollieStep e h ext s
  | .waitSatisfied e h ext => Sys2Proof.Machine.execWaitSatisfied e h ext s
  | .atTimeReached e h => Sys2Proof.Machine.execAtTimeReached e h s
  | .tcmpEvent e n => Sys2Proof.Machine.execTcmpEvent e n s
  | .collieDbell who e ch bits => Sys2Proof.Machine.execCollieDbell who e ch bits s
  | .collieSync who e v => Sys2Proof.Machine.execCollieSync who e v s
  | .collieSwap who e ch pc => Sys2Proof.Machine.execCollieSwap who e ch pc s
  | .collieForcedSwap who e ch pc => Sys2Proof.Machine.execCollieForcedSwap who e ch pc s
  | .swapTakeEffect e h => Sys2Proof.Machine.execSwapTakeEffect e h s
  | .collieChstop who e mask => Sys2Proof.Machine.execCollieChstop who e mask s
  | .collieArm who e v => Sys2Proof.Machine.execCollieArm who e v s
  | .syncStart e => Sys2Proof.Machine.execSyncStart e s
  | .psdataWrite who e v => Sys2Proof.Machine.execPsdataWrite who e v s
  | .qflush who e ch => Sys2Proof.Machine.execQflush who e ch s
  | .collieWindowWrite who e h ws => Sys2Proof.Machine.execCollieWindowWrite who e h ws s
  | .collieWindowRead who e h => Sys2Proof.Machine.execCollieWindowRead who e h s
  | .linkTrainingDone h gen width up => Sys2Proof.Machine.execLinkTrainingDone h gen width up s
  | .linkDown h landed => Sys2Proof.Machine.execLinkDown h landed s
  | .perst h landed => Sys2Proof.Machine.execPerst h landed s
  | .flr f landed => Sys2Proof.Machine.execFlr f landed s
  | .bar2Resize f sz => Sys2Proof.Machine.execBar2Resize f sz s
  | .retrain who h => Sys2Proof.Machine.execRetrain who h s
  | .d3Entry f => Sys2Proof.Machine.execD3Entry f s
  | .d0Return f => Sys2Proof.Machine.execD0Return f s
  | .dmaDescriptorStart h e => Sys2Proof.Machine.execDmaDescriptorStart h e s
  | .dmaDescriptorComplete h e host hostErr landed => Sys2Proof.Machine.execDmaDescriptorComplete h e host hostErr landed s
  | .dmaMarkerPoll h e => Sys2Proof.Machine.execDmaMarkerPoll h e s
  | .dmaHostTimeout h e host landed => Sys2Proof.Machine.execDmaHostTimeout h e host landed s
  | .dmaEnable who h e => Sys2Proof.Machine.execDmaEnable who h e s
  | .dmaDisable who h e host landed => Sys2Proof.Machine.execDmaDisable who h e host landed s
  | .dqbaseWrite who h e v => Sys2Proof.Machine.execDqbaseWrite who h e v s
  | .dqcfgSizeWrite who h e size => Sys2Proof.Machine.execDqcfgSizeWrite who h e size s
  | .dqtailWrite who h e tail => Sys2Proof.Machine.execDqtailWrite who h e tail s
  | .evhRescan who => Sys2Proof.Machine.execEvhRescan who s
  | .evhRescanDone => Sys2Proof.Machine.execEvhRescanDone s
  | .evhVack who vec => Sys2Proof.Machine.execEvhVack who vec s
  | .msixPendingSend vec => Sys2Proof.Machine.execMsixPendingSend vec s
  | .evhTimerArm who n v => Sys2Proof.Machine.execEvhTimerArm who n v s
  | .evhTimerExpiry n => Sys2Proof.Machine.execEvhTimerExpiry n s
  | .rtdataWrite who v => Sys2Proof.Machine.execRtdataWrite who v s
  | .modeReqLinked who => Sys2Proof.Machine.execModeReqLinked who s
  | .modeReqSplit who => Sys2Proof.Machine.execModeReqSplit who s
  | .modeReqMaintenance who => Sys2Proof.Machine.execModeReqMaintenance who s
  | .modeReqQuiescent who => Sys2Proof.Machine.execModeReqQuiescent who s
  | .modeReqOff who => Sys2Proof.Machine.execModeReqOff who s
  | .modeChangeComplete => Sys2Proof.Machine.execModeChangeComplete s
  | .powerOnReset => Sys2Proof.Machine.execPowerOnReset s
  | .sysRstAssert => Sys2Proof.Machine.execSysRstAssert s
  | .hubDevrst who => Sys2Proof.Machine.execHubDevrst who s
  | .supplyReset r mv dur => Sys2Proof.Machine.execSupplyReset r mv dur s
  | .thermalTrip => Sys2Proof.Machine.execThermalTrip s
  | .boot facts => Sys2Proof.Machine.execBoot facts s
  | .rmapCommit who => Sys2Proof.Machine.execRmapCommit who s
  | .rmapCommitDone => Sys2Proof.Machine.execRmapCommitDone s
  | .ftestStart who => Sys2Proof.Machine.execFtestStart who s
  | .foldTestDone found => Sys2Proof.Machine.execFoldTestDone found s
  | .supplyDipBegin r => Sys2Proof.Machine.execSupplyDipBegin r s
  | .supplyDipEnd r mv dur => Sys2Proof.Machine.execSupplyDipEnd r mv dur s
  | .clockRampGroup r => Sys2Proof.Machine.execClockRampGroup r s
  | .thermalSample rs => Sys2Proof.Machine.execThermalSample rs s
  | .throttleStep n => Sys2Proof.Machine.execThrottleStep n s
  | .delayMeasurement n d => Sys2Proof.Machine.execDelayMeasurement n d s
  | .floorTrip n => Sys2Proof.Machine.execFloorTrip n s
  | .pllLock n => Sys2Proof.Machine.execPllLock n s
  | .mccmdReissue who k => Sys2Proof.Machine.execMccmdReissue who k s
  | .mccmdFlush who k => Sys2Proof.Machine.execMccmdFlush who k s
  | .devInfo => Sys2Proof.Machine.execDevInfo s
  | .update flash => Sys2Proof.Machine.execUpdate flash s
  | .arbCommit => Sys2Proof.Machine.execArbCommit s
  | .lifecycle => Sys2Proof.Machine.execLifecycle s
  | .revoke => Sys2Proof.Machine.execRevoke s
  | .attest => Sys2Proof.Machine.execAttest s
  | .dbgChal => Sys2Proof.Machine.execDbgChal s
  | .dbgResp => Sys2Proof.Machine.execDbgResp s
  | .dbgPass => Sys2Proof.Machine.execDbgPass s
  | .relock => Sys2Proof.Machine.execRelock s
  | .nonceExpiry => Sys2Proof.Machine.execNonceExpiry s
  | .tamperResponse src => Sys2Proof.Machine.execTamperResponse src s
  | .tamperClear src => Sys2Proof.Machine.execTamperClear src s
  | .portOwnWrite jtag own => Sys2Proof.Machine.execPortOwnWrite jtag own s
  | .jtagUpdateDr v => Sys2Proof.Machine.execJtagUpdateDr v s
  | .tapReset => Sys2Proof.Machine.execTapReset s
  | .ganderNop jtag mask => Sys2Proof.Machine.execGanderNop jtag mask s
  | .auth jtag mask => Sys2Proof.Machine.execAuth jtag mask s
  | .halt jtag mask => Sys2Proof.Machine.execHalt jtag mask s
  | .debugHaltEntry k => Sys2Proof.Machine.execDebugHaltEntry k s
  | .ganderEventInput => Sys2Proof.Machine.execGanderEventInput s
  | .ganderResume jtag mask => Sys2Proof.Machine.execGanderResume jtag mask s
  | .step jtag mask => Sys2Proof.Machine.execStep jtag mask s
  | .feed jtag mask => Sys2Proof.Machine.execFeed jtag mask s
  | .rdreg jtag mask => Sys2Proof.Machine.execRdreg jtag mask s
  | .wrreg jtag mask => Sys2Proof.Machine.execWrreg jtag mask s
  | .mrd jtag mask => Sys2Proof.Machine.execMrd jtag mask s
  | .mwr jtag mask => Sys2Proof.Machine.execMwr jtag mask s
  | .ganderDevrst jtag mask => Sys2Proof.Machine.execGanderDevrst jtag mask s
  | .termRead jtag k => Sys2Proof.Machine.execTermRead jtag k s
  | .termWrite jtag k v => Sys2Proof.Machine.execTermWrite jtag k v s
  | .mgmtSelect i3c p slot => Sys2Proof.Machine.execMgmtSelect i3c p slot s
  | .mgmtRead i3c => Sys2Proof.Machine.execMgmtRead i3c s
  | .i3cDaa a => Sys2Proof.Machine.execI3cDaa a s
  | .vddAonLoss => Sys2Proof.Machine.execVddAonLoss s
  | .stackTemperatureReport die m temp hot => Sys2Proof.Machine.execStackTemperatureReport die m temp hot s
  | .configurationWrite f bme mse msixEn more landed => Sys2Proof.Machine.execConfigurationWrite f bme mse msixEn more landed s
  | .unsupportedRequest f => Sys2Proof.Machine.execUnsupportedRequest f s
  | .unassignedOpcode k => Sys2Proof.Machine.execUnassignedOpcode k s
  | .collieReserved e h => Sys2Proof.Machine.execCollieReserved e h s
  | .reservedSeqop k => Sys2Proof.Machine.execReservedSeqop k s
  | .jtagUpdateIr ir testEnLow => Sys2Proof.Machine.execJtagUpdateIr ir testEnLow s

end Sys2Proof.Machine
end

