-- ==== Sys2Proof/Machine/Step.lean ====
section
/-!
DEFINITION. One step: the command at the front of the queue, or a tick of TALLY (log entry 1, log entry 2).
-/
namespace Sys2Proof.Machine

/-- An empty queue lets a TALLY tick pass while the device has power; in OFF the block idles. -/
def idle (s : State) : State := { s with chip := Chip.live tick s.chip }

/-- One step: the front command acts on everything but the queue, which keeps its rest. -/
def step (s : State) : Host.Outcome State Fault Refusal :=
  match s.pending with
  | [] => .next (idle s)
  | i :: rest => exec i { s with pending := rest }

/-- The state with the command that a word spells in front of its queue. -/
def State.withFetchWord (s : State) (nbits w : Nat) : State :=
  match decodeTableWord nbits w with
  | some i => { s with pending := i :: s.pending }
  | none => s

end Sys2Proof.Machine
end

