-- ==== Sys2Proof/Machine/Flits.lean ====
section
/-!
DEFINITION. The flits of a ring packet (R295 to R297, R299, R302): what a packet of the model is on the links of a ring. The commands carry
whole packets, which is how a destination reassembles them (R301); CHK is opaque (log entry 8).
-/
namespace Sys2Proof.Machine

/-- A word of `n` bits from fields given by lowest bit, width and value. -/
def fieldsWord (n : Nat) (l : List (Nat × Nat × Nat)) : BitVec n :=
  l.foldl (fun w f => w ||| BitVec.ofNat n (f.2.2 % 2 ^ f.2.1 * 2 ^ f.1)) 0

/-- The virtual network of an opcode (Table 10-3): 0 REQ, 1 RSP, 2 EVT, 3 GNT. -/
def netOf (opc : Nat) : Nat := if opc < 8 then 0 else if opc < 0o13 then 1 else if opc = 0o13 then 2 else 3

/-- Elements of one flit, and bits of an element (R297). -/
def flitElems (nonet : Bool) : Nat := if nonet then 56 else 64
def elemBits (nonet : Bool) : Nat := if nonet then 9 else 8

/-- The flit that holds element `m`: a poisoned WR or WRP carries no data in its head flit (R297, R299). -/
def flitOf (opc : Nat) (k : Pkt) (m : Nat) : Nat :=
  m / flitElems k.nonet + (if (opc == 1 || opc == 2) && !k.mask.isEmpty then 1 else 0)
/-- Flits in the packet. -/
def flitCount (opc : Nat) (k : Pkt) : Nat := if k.data.isEmpty then 1 else flitOf opc k (k.data.length - 1) + 1

/-- The poison mask of flit `n` (R299). -/
def flitMask (opc : Nat) (k : Pkt) (n : Nat) : BitVec 64 :=
  fieldsWord 64 ((k.mask.filter (fun m => flitOf opc k m == n)).map (fun m => (m % flitElems k.nonet, 1, 1)))

/-- The data field of flit `n` (R297). -/
def flitData (opc : Nat) (k : Pkt) (n : Nat) : BitVec 512 :=
  let b := elemBits k.nonet
  fieldsWord 512 ((k.data.zipIdx.filter (fun e => flitOf opc k e.2 == n)).map (fun e => (b * (e.2 % flitElems k.nonet), b, e.1.toNat)))

/-- Bits [119:64] of a header, which a head flit and the body flits share but for FNUM (Table 10-2). -/
def flitFields (opc : Nat) (k : Pkt) (n : Nat) : List (Nat × Nat × Nat) :=
  [(118, 2, netOf opc), (117, 1, k.vc.toNat), (115, 2, k.dst.1), (111, 4, k.dst.2), (109, 2, k.src.1), (105, 4, k.src.2), (100, 5, k.init),
   (96, 4, opc), (90, 6, k.tag.toNat), (88, 2, n), (86, 2, flitCount opc k - 1), (83, 3, k.lap.toNat), (82, 1, (!k.mask.isEmpty).toNat),
   (81, 1, k.nonet.toNat), (72, 9, k.len.toNat), (69, 3, k.status)]

/-- A header of 120 bits with its check bits above them (R298). -/
def withChk (h : BitVec 120) : BitVec 128 := Config.ringChk h ++ h

/-- The header of flit `n`: its low 64 bits are the address of a request or a stream in the head, and the poison mask elsewhere. -/
def flitHeader (opc : Nat) (k : Pkt) (n : Nat) : BitVec 128 :=
  let low : BitVec 64 := if n = 0 ∧ netOf opc ≠ 1 then k.addr.setWidth 64 else flitMask opc k n
  withChk (fieldsWord 120 ((0, 64, low.toNat) :: flitFields opc k n))

/-- The flits of a packet, the head first (R295). -/
def Pkt.flits (opc : Nat) (k : Pkt) : List (BitVec 640) :=
  (List.range (flitCount opc k)).map (fun n => flitHeader opc k n ++ flitData opc k n)

/-- The low 64 bits of the header of an EVL packet (R302). -/
def evlBits (p : Nat) (level : Bool) : BitVec 64 := fieldsWord 64 [(0, 12, p), (12, 1, level.toNat)]

end Sys2Proof.Machine
end

