-- ==== Sys2Proof/WellFormed.lean ====
section
/-!
DEFINITION. Well-formed commands: operands that an initiator, a board or a memory can present. The types of the operands carry the
ranges of single fields; the checks here are the ranges that depend on another field.
-/
namespace Sys2Proof.Machine

/-- The initiators of Table 10-5. -/
def Who.ok : Who → Bool
  | .core k => decide (k < 4)
  | .host f => decide (f < 4)
  | .dma h => decide (h < 2)
  | .tile t => decide (t < 8)
  | .collie e => decide (e < 8)
  | .ctu d => decide (d < 4)
  | .gander => true
  | .thonos => true
  | .hub => true

/-- An access lies within its BAR (R63, Table 13-2). -/
def Bar.fits : Bar → Nat → Nat → Bool
  | .bar0, off, n => decide (off + n ≤ 2 ^ 24)
  | .bar2, off, n => decide (off + n ≤ 2 ^ 38)
  | .bar4, off, n => decide (off + n ≤ 2 ^ 26)

/-- A stop of Table 10-1. -/
def stopOk (s : Nat × Nat) : Bool := decide (s.1 < 3) && decide (s.2 < 16)

/-- A packet of Table 10-2: a known initiator, stops that exist, at most 256 elements, and poison on elements that it has. -/
def Pkt.ok (q : Pkt) : Bool :=
  decide (q.init < 29) && stopOk q.src && stopOk q.dst && decide (q.len.toNat ≤ if q.nonet then 224 else 256) &&
  decide (q.data.length ≤ q.len.toNat) && q.mask.all (fun i => decide (i < q.data.length)) && decide (q.status < 6) &&
  (!q.nonet || decide (q.addr.toNat < 2 ^ 36))
/-- A write packet carries LEN elements, and at most 192 octets or 168 nonets when one of them is poisoned (R299). -/
def Pkt.writeOk (q : Pkt) : Bool :=
  q.ok && q.data.length == q.len.toNat && (q.mask.isEmpty || decide (q.len.toNat ≤ if q.nonet then 168 else 192))

/-- Severity reports on bursts of a die's space. -/
def Sev.allOk (l : List Sev) : Bool := l.all (fun x => decide (x.burst < 2 ^ 31))

/-- The words of each bank (Table 9-3). -/
def bankSize (b : Nat) : Nat := if b = 5 then 524288 else if b = 6 then 262144 else if b = 7 ∨ b = 8 then 65536 else 1048576

/-- A port access within bank b. -/
def BankAcc.ok (b : Nat) : BankAcc → Bool
  | .read w => decide (w < bankSize b)
  | .write w _ ns => decide (w < bankSize b) && ns.all (fun n => decide (n < 4))
  | .aadd w _ => decide (w < bankSize b)
  | .aswap w _ => decide (w < bankSize b)
  | .post w _ ns => decide (w < bankSize b) && ns.all (fun n => decide (n < 4))
  | .ldr w k => decide (w < bankSize b) && decide (k < 4)
  | .stc w k _ => decide (w < bankSize b) && decide (k < 4)

/-- A request of one of the requesters of R270. -/
def HbmReq.ok : HbmReq → Bool
  | .queued p ch => decide (p < 9) && decide (ch < 16)
  | .read req o n sev => decide (req < 12) && decide (o + n ≤ 2 ^ 36) && Sev.allOk sev
  | .write req o data => decide (req < 12) && decide (o + data.length ≤ 2 ^ 36)

end Sys2Proof.Machine

namespace Sys2Proof
open Sys2Proof.Machine

/-- The command is well formed. -/
def Instr.wf : Instr → Bool
  | .registerWrite who _ _ _ => who.ok
  | .evSet who _ _ => who.ok
  | .evl _ => true
  | .perturbApply _ => true
  | .hostMemWrite _ bar off data _ => Bar.fits bar off data.length && decide (data.length ≤ 512)
  | .hostMemRead _ bar off len => Bar.fits bar off len && decide (len ≤ 4096)
  | .msixTableAccess _ off write len => decide (off + len ≤ 2 ^ 24) && (match write with | some d => d.length == len && decide (len ≤ 512) | none => decide (len ≤ 4096))
  | .beatFrame _ _ => true
  | .beat _ => true
  | .foldStall _ => true
  | .portAccess _ _ _ => true
  | .planeClearDone => true
  | .reductionDeliver _ => true
  | .arrLogic _ => true
  | .arrRlog _ => true
  | .arrAdd _ => true
  | .arrSub _ => true
  | .arrAddc _ => true
  | .arrNeg _ => true
  | .arrAdds _ => true
  | .arrSubs _ => true
  | .arrShl _ => true
  | .arrShr _ => true
  | .arrRot _ => true
  | .arrMul _ => true
  | .arrDiv _ => true
  | .arrGadd _ => true
  | .arrGsub _ => true
  | .arrGadds _ => true
  | .arrGneg _ => true
  | .arrGshl _ => true
  | .arrGshr _ => true
  | .arrGrot _ => true
  | .arrGmul _ => true
  | .arrGdiv _ => true
  | .arrCmp _ => true
  | .arrCmps _ => true
  | .arrGcmp _ => true
  | .arrGcmps _ => true
  | .arrMax _ => true
  | .arrMin _ => true
  | .arrMset _ => true
  | .arrMld _ => true
  | .arrMst _ => true
  | .arrMand _ => true
  | .arrMpush _ => true
  | .arrMpop _ => true
  | .arrMelse _ => true
  | .arrMove _ => true
  | .arrRowb _ => true
  | .arrColb _ => true
  | .arrBcast _ => true
  | .arrGbcast _ => true
  | .arrFadd _ => true
  | .arrFsub _ => true
  | .arrFmul _ => true
  | .arrFdiv _ => true
  | .arrFma _ => true
  | .arrFcmp _ => true
  | .arrBell _ => true
  | .arrCount _ => true
  | .arrFirst _ => true
  | .arrTwist _ => true
  | .arrPfence _ => true
  | .arrPres _ => true
  | .aluAdd _ => true
  | .aluSub _ => true
  | .aluAddc _ => true
  | .aluSubc _ => true
  | .aluNeg _ => true
  | .aluAnd _ => true
  | .aluOr _ => true
  | .aluXor _ => true
  | .aluAndn _ => true
  | .aluOrn _ => true
  | .aluXnor _ => true
  | .aluSlt _ => true
  | .aluSltu _ => true
  | .aluMin _ => true
  | .aluMax _ => true
  | .aluMinu _ => true
  | .aluMaxu _ => true
  | .shiftShl _ => true
  | .shiftShr _ => true
  | .shiftSar _ => true
  | .shiftRol _ => true
  | .shiftRor _ => true
  | .muldivMul _ => true
  | .muldivMulu _ => true
  | .muldivMulf _ => true
  | .muldivMulfu _ => true
  | .muldivDiv _ => true
  | .muldivDivu _ => true
  | .muldivDivd _ => true
  | .muldivDivdu _ => true
  | .fpuFadd _ => true
  | .fpuFsub _ => true
  | .fpuFmul _ => true
  | .fpuFdiv _ => true
  | .fpuFma _ => true
  | .fpuFcmp _ => true
  | .fpuFneg _ => true
  | .fpuFabs _ => true
  | .fcvtIntToBinary32 _ => true
  | .fcvtIntToBinary64 _ => true
  | .fcvtBinary32ToInt _ => true
  | .fcvtBinary64ToInt _ => true
  | .fcvtBinary32ToBinary64 _ => true
  | .fcvtBinary64ToBinary32 _ => true
  | .scLdr _ => true
  | .scStc _ => true
  | .scAadd _ => true
  | .scAswap _ => true
  | .scAddi _ => true
  | .scAndi _ => true
  | .scOri _ => true
  | .scXori _ => true
  | .scSlti _ => true
  | .scSltiu _ => true
  | .scLui _ => true
  | .scLdn _ => true
  | .scLdns _ => true
  | .scLdh _ => true
  | .scLdhs _ => true
  | .scLdw _ => true
  | .scLdd _ => true
  | .scStn _ => true
  | .scSth _ => true
  | .scStw _ => true
  | .scStd _ => true
  | .scBeq _ => true
  | .scBne _ => true
  | .scBlt _ => true
  | .scBge _ => true
  | .scBltu _ => true
  | .scBgeu _ => true
  | .scJ _ => true
  | .scJal _ => true
  | .scJalr _ => true
  | .scLoop _ => true
  | .scNop _ => true
  | .scMfs _ => true
  | .scMts _ => true
  | .scTrap _ => true
  | .scRti _ => true
  | .scWait _ => true
  | .scFence _ => true
  | .scIfence _ => true
  | .scAfence _ => true
  | .scBrk _ => true
  | .scCop _ => true
  | .copTimeout _ => true
  | .interruptEntry _ => true
  | .machineCheckEntry _ => true
  | .bwRunRelease who _ => who.ok
  | .bwRunStop who _ => who.ok
  | .coreResetHold _ => true
  | .watchdogExpiry _ => true
  | .wdgKick who _ => who.ok
  | .wdgPeriodWrite who _ _ => who.ok
  | .csdataCommit who _ _ => who.ok
  | .mseqStart _ => true
  | .microCont _ => true
  | .microCall _ => true
  | .microRet _ => true
  | .microEnd _ => true
  | .microWaitb _ => true
  | .preempt who _ => who.ok
  | .preemptTakeEffect _ => true
  | .mseqResume who _ => who.ok
  | .mseqDiscard who _ => who.ok
  | .mseqSave who _ => who.ok
  | .mseqRestore who _ => who.ok
  | .voteCompare _ => true
  | .voteWindowExpiry _ => true
  | .ctuChstart who _ _ _ => who.ok
  | .ctuChabort who _ _ _ => who.ok
  | .slotGrant _ _ _ => true
  | .descriptorFetchDone _ _ _ => true
  | .reservationPlace _ _ _ => true
  | .stagingFill _ _ _ sev => Sev.allOk sev
  | .reservationClear _ _ _ => true
  | .channelComplete _ _ _ => true
  | .ctuGone _ _ _ => true
  | .hbmRequest _ q => q.ok
  | .hbmRefresh _ _ _ => true
  | .bankAccess b owner ring => (owner.all (BankAcc.ok b.val)) && ring.all (BankAcc.ok b.val)
  | .btestRegion _ fails => fails.all (fun x => decide (x.1 < 64) && decide (x.2 < 40))
  | .bankPdown who _ => who.ok
  | .bankOff _ => true
  | .bankWake who _ => who.ok
  | .bankClearDone _ => true
  | .secureWipeDone => true
  | .ringRd q sev => q.ok && q.data.isEmpty && Sev.allOk sev
  | .ringWr q sev => q.writeOk && Sev.allOk sev
  | .ringWrp q sev => q.writeOk && Sev.allOk sev
  | .ringAadd q => q.ok && q.nonet
  | .ringAswap q => q.ok && q.nonet
  | .ringLdr q => q.ok && q.nonet && q.data.isEmpty
  | .ringStc q => q.ok && q.nonet
  | .ringCop _ => true
  | .ringData _ _ _ => true
  | .ringAck _ _ _ => true
  | .ringCopr _ _ => true
  | .strm q => q.ok && q.data.length == q.len.toNat && decide (q.data.length ≤ if q.nonet then 56 else 64)
  | .orderingProbe q => q.ok && q.len == 0
  | .xrCrossing opc q => q.ok && decide (opc.toNat ≤ 12)
  | .stopReconfSet who _ _ => who.ok
  | .stopEnterPass _ _ => true
  | .stopReconfClear who _ _ => who.ok
  | .passThrough _ _ => true
  | .requestTimeout _ _ init _ => decide (init < 29)
  | .gnttabApply _ => true
  | .tileLoad who _ => who.ok
  | .tileLoadDone _ => true
  | .tileUnload who _ => who.ok
  | .tileGo who _ _ => who.ok
  | .cellPass _ _ => true
  | .cellAdd _ _ => true
  | .cellAddc _ _ => true
  | .cellSub _ _ => true
  | .cellSubc _ _ => true
  | .cellAnd _ _ => true
  | .cellOr _ _ => true
  | .cellXor _ _ => true
  | .cellAndn _ _ => true
  | .cellShl _ _ => true
  | .cellShr _ _ => true
  | .cellSar _ _ => true
  | .cellRol _ _ => true
  | .cellLit _ _ => true
  | .cellLith _ _ => true
  | .cellEq _ _ => true
  | .cellLtu _ _ => true
  | .cellLts _ _ => true
  | .cellMull _ _ => true
  | .cellMulh _ _ => true
  | .cellSel _ _ => true
  | .cellMxc _ _ => true
  | .cellExt _ _ => true
  | .cellDep _ _ => true
  | .cellPopc _ _ => true
  | .putCpok _ _ => true
  | .putCperr _ _ => true
  | .putSout _ _ => true
  | .putSpop _ _ => true
  | .putSoutf _ _ => true
  | .copCurrent _ => true
  | .tileUnfreeze _ => true
  | .treeClockChange _ _ => true
  | .tileDomainOff who _ => who.ok
  | .tileDomainOn who _ => who.ok
  | .collieDomainOff who _ => who.ok
  | .collieDomainOn who _ => who.ok
  | .collieChstart who _ _ => who.ok
  | .collieEntryLoaded _ _ => true
  | .collieSho _ _ => true
  | .collieShi _ _ => true
  | .collieShb _ _ => true
  | .colliePin _ _ => true
  | .collieWaitp _ _ => true
  | .collieWaitf _ _ => true
  | .collieWaite _ _ => true
  | .collieSetf _ _ => true
  | .collieAt _ _ => true
  | .collieLdi _ _ => true
  | .collieAddi _ _ => true
  | .collieJmp _ _ => true
  | .collieLoop _ _ => true
  | .collieLoopg _ _ => true
  | .colliePull _ _ => true
  | .colliePush _ _ => true
  | .collieMov _ _ => true
  | .collieAdd _ _ => true
  | .collieSub _ _ => true
  | .collieAnd _ _ => true
  | .collieOr _ _ => true
  | .collieXor _ _ => true
  | .collieNot _ _ => true
  | .collieStampw _ _ => true
  | .collieStampa _ _ => true
  | .collieTake _ _ => true
  | .collieSig _ _ => true
  | .collieEnd _ _ => true
  | .collieTime _ _ => true
  | .collieFlusho _ _ => true
  | .collieCmpu _ _ => true
  | .collieStep _ _ _ => true
  | .waitSatisfied _ _ _ => true
  | .atTimeReached _ _ => true
  | .tcmpEvent _ _ => true
  | .collieDbell who _ _ _ => who.ok
  | .collieSync who _ _ => who.ok
  | .collieSwap who _ _ _ => who.ok
  | .collieForcedSwap who _ _ _ => who.ok
  | .swapTakeEffect _ _ => true
  | .collieChstop who _ _ => who.ok
  | .collieArm who _ _ => who.ok
  | .syncStart _ => true
  | .psdataWrite who _ _ => who.ok
  | .qflush who _ _ => who.ok
  | .collieWindowWrite who _ _ ws => who.ok && decide (ws.length ≤ 64)
  | .collieWindowRead who _ _ => who.ok
  | .linkTrainingDone _ _ width _ => [1, 2, 4, 8, 16].contains width
  | .linkDown _ _ => true
  | .perst _ _ => true
  | .flr _ _ => true
  | .bar2Resize _ _ => true
  | .retrain who _ => who.ok
  | .d3Entry _ => true
  | .d0Return _ => true
  | .dmaDescriptorStart _ _ => true
  | .dmaDescriptorComplete _ _ _ _ _ => true
  | .dmaMarkerPoll _ _ => true
  | .dmaHostTimeout _ _ _ _ => true
  | .dmaEnable who _ _ => who.ok
  | .dmaDisable who _ _ _ _ => who.ok
  | .dqbaseWrite who _ _ _ => who.ok
  | .dqcfgSizeWrite who _ _ _ => who.ok
  | .dqtailWrite who _ _ _ => who.ok
  | .evhRescan who => who.ok
  | .evhRescanDone => true
  | .evhVack who _ => who.ok
  | .msixPendingSend _ => true
  | .evhTimerArm who _ _ => who.ok
  | .evhTimerExpiry _ => true
  | .rtdataWrite who _ => who.ok
  | .modeReqLinked who => who.ok
  | .modeReqSplit who => who.ok
  | .modeReqMaintenance who => who.ok
  | .modeReqQuiescent who => who.ok
  | .modeReqOff who => who.ok
  | .modeChangeComplete => true
  | .powerOnReset => true
  | .sysRstAssert => true
  | .hubDevrst who => who.ok
  | .supplyReset _ _ _ => true
  | .thermalTrip => true
  | .boot _ => true
  | .rmapCommit who => who.ok
  | .rmapCommitDone => true
  | .ftestStart who => who.ok
  | .foldTestDone _ => true
  | .supplyDipBegin _ => true
  | .supplyDipEnd _ _ _ => true
  | .clockRampGroup _ => true
  | .thermalSample rs => rs.all (fun r => decide (r.1 < 1040))
  | .throttleStep _ => true
  | .delayMeasurement _ _ => true
  | .floorTrip _ => true
  | .pllLock _ => true
  | .mccmdReissue who _ => who.ok
  | .mccmdFlush who _ => who.ok
  | .devInfo => true
  | .update _ => true
  | .arbCommit => true
  | .lifecycle => true
  | .revoke => true
  | .attest => true
  | .dbgChal => true
  | .dbgResp => true
  | .dbgPass => true
  | .relock => true
  | .nonceExpiry => true
  | .tamperResponse _ => true
  | .tamperClear _ => true
  | .portOwnWrite _ _ => true
  | .jtagUpdateDr _ => true
  | .tapReset => true
  | .ganderNop _ _ => true
  | .auth _ _ => true
  | .halt _ _ => true
  | .debugHaltEntry _ => true
  | .ganderEventInput => true
  | .ganderResume _ _ => true
  | .step _ _ => true
  | .feed _ _ => true
  | .rdreg _ _ => true
  | .wrreg _ _ => true
  | .mrd _ _ => true
  | .mwr _ _ => true
  | .ganderDevrst _ _ => true
  | .termRead _ _ => true
  | .termWrite _ _ _ => true
  | .mgmtSelect _ _ _ => true
  | .mgmtRead _ => true
  | .i3cDaa _ => true
  | .vddAonLoss => true
  | .stackTemperatureReport _ _ _ _ => true
  | .configurationWrite _ _ _ _ _ _ => true
  | .unsupportedRequest _ => true
  | .unassignedOpcode _ => true
  | .collieReserved _ _ => true
  | .reservedSeqop _ => true
  | .jtagUpdateIr _ _ => true

end Sys2Proof
end

