-- ==== Sys2Proof/Safety.lean ====
section
/-!
DEFINITION. What claims about the device are stated with: the canonical form of its memories, a core or an array that is about to act, and
a register write that nothing refuses.
-/
namespace Sys2Proof.Machine

/-- The scratch banks and HBM list only bytes that differ from what an unlisted address reads as, addresses strictly rising. -/
def Memory.wf (m : Mem) : Bool :=
  SMap.wf (fun _ => (0 : BitVec 10)) m.banks && SMap.wf (fun _ => (0 : BitVec 9)) m.hbm

/-- No comparator that watches core `k` is enabled (R504). -/
def Chip.quiet (c : Chip) (k : Nat) : Bool :=
  (List.range 8).all (fun j => !bitAt (c.reg pgGander (32 + 16 * (if c.linked then 0 else k) + 2 * j)) 35)

/-- The word at address `pc` of the bank of core `k` is `w`, stored with good parity in a bank that is on (R169, R284, R287). -/
def Chip.holds (c : Chip) (k : Nat) (pc w : Word) : Bool :=
  decide (pc.toNat ≤ 0o17777774) && bankOn c k && !bankClearing c k &&
    (c.badNonets (bankBase k + pc.toNat)).isEmpty && c.bankWord (bankBase k + pc.toNat) == w

/-- Core `k` is about to execute the word `w`: it runs, nothing holds it, no request of its own is out, no comparator watches it, no single
step is under way (R495). -/
def Chip.about (c : Chip) (k : Nat) (w : Word) : Bool :=
  mayRun c k && (c.core k).xact == Xact.none && !(c.core k).stepping && c.quiet k && c.holds k (c.pc k) w

/-- Core `k` is about to execute the legal word `w` of operation `t` (Table 6-4, R168). -/
def Chip.ready (c : Chip) (k : Nat) (t : Tag) (w : Word) : Bool :=
  c.about k w && tagOf w == some t && scalarLegal t w

/-- A write of slot `s` of page `p` by `who` that reaches the register: the device has power, the page answers, the slot takes the
initiator's writes, and no lock, state or reserved encoding refuses it (R50, R53, R56 to R58). -/
def Chip.takes (c : Chip) (who : Who) (p s : Nat) (v : Word) : Bool :=
  !c.pwr.off && slotStatus p s c == 0 && (pageBlock p).1 != .unlisted &&
    !(match who with | .core k => p == pgHub && s == 18 && c.linked && k != 0 | _ => false) &&
    slotOpen who p s && !plainSlot p s && !lockedSlot c p s && !refusedSlot who p s v c && !reservedSlot p s v c

/-- Channel `h` of collie engine `e` is about to execute the legal instruction `v` of operation `t`: it runs, waits for nothing, and its
PC lies in its window at an intact word (R367, R368, R370, R373). -/
def Chip.collieReady (c : Chip) (e h : Nat) (t : CTag) (v : Nat) : Bool :=
  let x := c.cch e h
  let w := c.psWord e ((if x.half then 2048 else 0) + x.pc)
  !c.pwr.off && !colOff c e && x.st == 2 && x.wait.isNone && x.swap.isNone && x.inWindow x.pc && !psBad w && (w.setWidth 18).toNat == v &&
    cTag v == t && cLegal v && (x.timed.isNone || t == .pin || t == .sho || t == .shi || t == .shb) && (!cWaits t || x.shiftIdle)

/-- Nothing waits on the rings that the progress of one packet would set going: no request at a target, no inbound host request, no command
of the debug port, no coprocessor request. -/
def Chip.calm (c : Chip) : Bool :=
  c.ring.flight.all (fun f => !f.here) && c.hst.reqs.isEmpty && c.dbg.cmd.isNone && cores4.all (fun k => (c.core k).cop.isNone)

/-- How many W registers, from RD upward, an arithmetic or load instruction writes (R162, R170 to R176). -/
def Tag.dests (t : Tag) (w : Word) : Nat :=
  match t with
  | .alu f => if fn w 5 1 = 1 ∧ f ≠ 11 ∧ f ≠ 12 then 2 else 1
  | .shift _ => if fn w 3 1 = 1 then 2 else 1
  | .muldiv f => if f < 2 then 1 else if f < 6 then 2 else 4
  | .fpu f => if fn w 10 1 = 1 ∧ f ≠ 5 then 2 else 1
  | .fcvt f => if f = 1 ∨ f = 4 ∨ ((f = 2 ∨ f = 3) ∧ fn w 7 1 = 1) then 2 else 1
  | .imm _ => 1
  | .load op => if op = 0o035 then 2 else 1
  | _ => 0

/-- The instruction writes C and V (R136, R170, R172, R173). -/
def Tag.flags (t : Tag) : Bool :=
  match t with
  | .alu f => decide (f < 5)
  | .muldiv _ => true
  | .imm op => op == 0o020
  | _ => false

/-- Commands to the always-on domain, which alone acts in OFF (R412). -/
def alwaysOn (i : Instr) : Bool :=
  match i with
  | .powerOnReset | .vddAonLoss | .sysRstAssert | .thermalTrip | .supplyReset .. | .supplyDipBegin _ | .supplyDipEnd .. | .clockRampGroup _
  | .thermalSample _ | .tamperResponse _ | .tamperClear _ | .jtagUpdateDr _ | .jtagUpdateIr .. | .tapReset | .mgmtSelect ..
  | .mgmtRead _ | .boot _ => true
  | _ => false

/-- A command that leaves OFF or holds the always-on domain in reset: BOOT, POR and the loss of VDD_AON. -/
def resetsAon (i : Instr) : Bool :=
  match i with
  | .powerOnReset | .vddAonLoss | .boot _ => true
  | _ => false

/-- The state after the instruction at PC of core `k` completes with effect `f` and the word after it follows (R164, R183). -/
def State.after (s : State) (k : Nat) (f : Chip → Chip) : State := { s with chip := retireOne k (advance k 4 (f s.chip)) }
/-- The state after a taken branch or jump to `target` with effect `f` (R182, R183). -/
def State.jumped (s : State) (k : Nat) (target : Word) (f : Chip → Chip) : State :=
  { s with chip := retireOne k (jumpTo k target (f s.chip)) }
/-- The state with the device changed by `f`, and the queue as it was. -/
def State.on (s : State) (f : Chip → Chip) : State := { s with chip := f s.chip }

end Sys2Proof.Machine
end

