-- ==== Sys2Proof/Certificates/Slice0/Obligations.lean ====
section
/-!
DEFINITION. The statements about the model, for the provers. Each docstring names the rule of the spec that it formalises.
-/
open Sys2Proof Sys2Proof.Machine

/-- The step of a block: the front command acts, on the state with the rest of the queue (the queue is the model's, log entry 1). -/
def Obligations.StepRunsFrontCommand : Prop :=
  ∀ (i : Instr) (rest : List Instr) (s : State),
    step { s with pending := i :: rest } = exec i { s with pending := rest }

/-- What reset leaves (R412, R413, Table 6-1); values that no rule gives are the model's choice (log entry 6). -/
def Obligations.ResetIsOff : Prop :=
  State.reset.chip.pwr.off = true ∧ State.reset.pending = [] ∧ State.reset.chip.reg pgAon 17 = 2 ∧
  State.reset.chip.fld pgAon 16 31 5 = 1 ∧ State.reset.chip.tally = 0 ∧
  State.reset.chip.mem.banks = [] ∧ State.reset.chip.mem.hbm = [] ∧ Memory.wf State.reset.chip.mem = true ∧
  (∀ (k : Fin 4) (r : BitVec 5), State.reset.chip.w k.val r = 0) ∧
  (∀ k : Fin 4, State.reset.chip.sr k.val srFIRST = BitVec.allOnes 36 ∧ State.reset.chip.sr k.val srPSW = 0 ∧
    State.reset.chip.pc k.val = 0 ∧ State.reset.chip.running k.val = false) ∧
  State.reset.chip.pins.ready = false

/-- The ALU, SHIFT and immediate groups (R170, R171, R173, Tables 6-4 to 6-6): completion, result, flags and frame in one equation. -/
def Obligations.AluShiftImmediateComplete : Prop :=
  (∀ (k : Fin 4) (s : State) (w : Word) (p : Instr × Nat),
    p ∈ [(Instr.aluAdd k, 0), (.aluSub k, 1), (.aluAddc k, 2), (.aluSubc k, 3), (.aluNeg k, 4), (.aluAnd k, 5), (.aluOr k, 6), (.aluXor k, 7), (.aluAndn k, 8),
      (.aluOrn k, 9), (.aluXnor k, 10), (.aluSlt k, 11), (.aluSltu k, 12), (.aluMin k, 13), (.aluMax k, 14), (.aluMinu k, 15), (.aluMaxu k, 16)] →
    s.chip.ready k.val (.alu p.2) w = true →
    exec p.1 s = .next (s.after k.val (fun c =>
      let d := fn w 5 1 == 1
      let r := aluRes p.2 (if d then 72 else 36) (val c k.val d (wRa w)) (val c k.val d (wRb w)) (c.psw k.val pswC)
      let c' := putVal k.val (d && p.2 != 11 && p.2 != 12) (wRd w) r.1 c
      match r.2 with
      | some f => c'.setCV k.val f.1 f.2
      | none => c'))) ∧
  (∀ (k : Fin 4) (s : State) (w : Word) (p : Instr × Nat),
    p ∈ [(Instr.shiftShl k, 0), (.shiftShr k, 1), (.shiftSar k, 2), (.shiftRol k, 3), (.shiftRor k, 4)] →
    s.chip.ready k.val (.shift p.2) w = true →
    exec p.1 s = .next (s.after k.val (fun c =>
      let d := fn w 3 1 == 1
      let n := if fn w 4 1 = 1 then fn w 5 9 else (c.w k.val (wRb w)).toNat
      putVal k.val d (wRd w) (shiftRes p.2 (if d then 72 else 36) (val c k.val d (wRa w)) n) c))) ∧
  (∀ (k : Fin 4) (s : State) (w : Word) (p : Instr × Nat × (Word → Word)),
      p ∈ [(Instr.scAddi k, 0o020, fun a => a + sextImm w), (.scAndi k, 0o021, fun a => a &&& zextImm w),
        (.scOri k, 0o022, fun a => a ||| zextImm w), (.scXori k, 0o023, fun a => a ^^^ zextImm w),
        (.scSlti k, 0o024, fun a => if a.slt (sextImm w) then 1 else 0), (.scSltiu k, 0o025, fun a => if a.ult (zextImm w) then 1 else 0),
        (.scLui k, 0o026, fun _ => zextImm w <<< 17)] →
      s.chip.ready k.val (.imm p.2.1) w = true →
      exec p.1 s = .next (s.after k.val (fun c =>
        let a := c.w k.val (wRa w)
        let c' := c.setW k.val (wRd w) (p.2.2 a)
        if p.2.1 = 0o020 then c'.setCV k.val (decide (2 ^ 36 ≤ a.toNat + (sextImm w).toNat)) (BitVec.saddOverflow a (sextImm w)) else c')))

/-- Table 6-5, R136 and R144 in bit vectors, at any width that is not zero. -/
def Obligations.AluAndShiftTable : Prop :=
  (∀ (n : Nat) (a b : BitVec n) (cy : Bool), 0 < n →
    let fits (x : Int) : Prop := -2 ^ (n - 1) ≤ x ∧ x < 2 ^ (n - 1)
    aluRes 0 n a.toNat b.toNat cy = ((a + b).toNat, some (decide (2 ^ n ≤ a.toNat + b.toNat), BitVec.saddOverflow a b)) ∧
    aluRes 1 n a.toNat b.toNat cy = ((a - b).toNat, some (decide (b.toNat ≤ a.toNat), BitVec.ssubOverflow a b)) ∧
    aluRes 2 n a.toNat b.toNat cy = ((a + b + BitVec.ofNat n cy.toNat).toNat, some (decide (2 ^ n ≤ a.toNat + b.toNat + cy.toNat),
      decide (¬ fits (a.toInt + b.toInt + cy.toNat)))) ∧
    aluRes 3 n a.toNat b.toNat cy = ((a - b - BitVec.ofNat n (!cy).toNat).toNat,
      some (decide (b.toNat + (!cy).toNat ≤ a.toNat), decide (¬ fits (a.toInt - b.toInt - (!cy).toNat)))) ∧
    aluRes 4 n a.toNat b.toNat cy = ((-a).toNat, some (a == 0#n, a == BitVec.intMin n)) ∧
    aluRes 5 n a.toNat b.toNat cy = ((a &&& b).toNat, none) ∧
    aluRes 6 n a.toNat b.toNat cy = ((a ||| b).toNat, none) ∧
    aluRes 7 n a.toNat b.toNat cy = ((a ^^^ b).toNat, none) ∧
    aluRes 8 n a.toNat b.toNat cy = ((a &&& ~~~b).toNat, none) ∧
    aluRes 9 n a.toNat b.toNat cy = ((a ||| ~~~b).toNat, none) ∧
    aluRes 10 n a.toNat b.toNat cy = ((~~~(a ^^^ b)).toNat, none) ∧
    aluRes 11 n a.toNat b.toNat cy = ((a.slt b).toNat, none) ∧
    aluRes 12 n a.toNat b.toNat cy = ((a.ult b).toNat, none) ∧
    aluRes 13 n a.toNat b.toNat cy = ((if a.slt b then a else b).toNat, none) ∧
    aluRes 14 n a.toNat b.toNat cy = ((if b.slt a then a else b).toNat, none) ∧
    aluRes 15 n a.toNat b.toNat cy = ((if a.ult b then a else b).toNat, none) ∧
    aluRes 16 n a.toNat b.toNat cy = ((if b.ult a then a else b).toNat, none)) ∧
  (∀ (n : Nat) (a : BitVec n) (m : Nat), 0 < n →
    shiftRes 0 n a.toNat m = (a <<< m).toNat ∧ shiftRes 1 n a.toNat m = (a >>> m).toNat ∧
    shiftRes 2 n a.toNat m = (a.sshiftRight m).toNat ∧ shiftRes 3 n a.toNat m = (a.rotateLeft m).toNat ∧
    shiftRes 4 n a.toNat m = (a.rotateRight m).toNat)

/-- The MULDIV group (R137 to R141, R172, Table 6-7). -/
def Obligations.MulDivCompletes : Prop :=
  ∀ (k : Fin 4) (s : State) (w : Word) (p : Instr × Nat),
    p ∈ [(Instr.muldivMul k, 0), (.muldivMulu k, 1), (.muldivMulf k, 2), (.muldivMulfu k, 3), (.muldivDiv k, 4), (.muldivDivu k, 5),
      (.muldivDivd k, 6), (.muldivDivdu k, 7)] →
    s.chip.ready k.val (.muldiv p.2) w = true →
    let signed := p.2 % 2 == 0
    let a := val s.chip k.val (decide (6 ≤ p.2)) (wRa w)
    let b := val s.chip k.val (decide (6 ≤ p.2)) (wRb w)
    exec p.1 s = .next (
      if p.2 < 2 then s.after k.val (fun c =>
        (c.setW k.val (wRd w) (BitVec.ofNat 36 (mulLow signed 36 a b).res)).setCV k.val false (mulLow signed 36 a b).v)
      else if p.2 < 4 then s.after k.val (fun c =>
        (c.setPair k.val (wRd w) (BitVec.ofNat 72 (mulFull signed 36 a b))).setCV k.val false false)
      else if b = 0 then s.on (trapAt k.val 0o010 (s.chip.pc k.val) 0)
      else if p.2 < 6 then s.after k.val (fun c =>
        ((c.setW k.val (wRd w) (BitVec.ofNat 36 (divRem signed 36 a b).1)).setW k.val (wRd w + 1)
          (BitVec.ofNat 36 (divRem signed 36 a b).2.1)).setCV k.val false (divRem signed 36 a b).2.2)
      else s.after k.val (fun c =>
        ((c.setPair k.val (wRd w) (BitVec.ofNat 72 (divRem signed 72 a b).1)).setPair k.val (wRd w + 2)
          (BitVec.ofNat 72 (divRem signed 72 a b).2.1)).setCV k.val false (divRem signed 72 a b).2.2))

/-- R137, R139 and R140 in bit vectors. -/
def Obligations.DivisionLaws : Prop :=
  ∀ (n : Nat) (a b : BitVec n), 0 < n → b ≠ 0 →
    divRem false n a.toNat b.toNat = ((a / b).toNat, (a % b).toNat, false) ∧
    (divRem true n a.toNat b.toNat).1 = (a.sdiv b).toNat ∧ (divRem true n a.toNat b.toNat).2.1 = (a.srem b).toNat ∧
    (divRem true n a.toNat b.toNat).2.2 = (a == BitVec.intMin n && b == -1#n) ∧
    mulFull false n a.toNat b.toNat = a.toNat * b.toNat ∧
    (mulFull true n a.toNat b.toNat : Int) = a.toInt * b.toInt % 2 ^ (2 * n)

/-- The FPU and FCVT groups (R174, R175, Table 6-8, Table 5-5, R148, R149). -/
def Obligations.FloatsComplete : Prop :=
  (∀ (k : Fin 4) (s : State) (w : Word) (p : Instr × Nat),
    p ∈ [(Instr.fpuFadd k, 0), (.fpuFsub k, 1), (.fpuFmul k, 2), (.fpuFdiv k, 3), (.fpuFma k, 4), (.fpuFcmp k, 5), (.fpuFneg k, 6),
      (.fpuFabs k, 7)] →
    s.chip.ready k.val (.fpu p.2) w = true →
    exec p.1 s = .next (s.after k.val (fun c =>
      let d := fn w 10 1 == 1
      let x (r : BitVec 5) : Nat := val c k.val d r % 2 ^ (if d then 64 else 32)
      let r := fpuRes (if d then fmt64 else fmt32) p.2 (scalarRm c k.val (fn w 11 3)) (fn w 3 3) (x (wRa w)) (x (wRb w)) (x (wRd w))
      (putVal k.val (d && p.2 != 5) (wRd w) r.bits c).orFpsw k.val r.fl))) ∧
  (∀ (k : Fin 4) (s : State) (w : Word) (p : Instr × Nat × Option Bool × Option Bool),
    -- the source and the destination: a word, a pair, or as D says
    p ∈ [(Instr.fcvtIntToBinary32 k, 0, none, some false), (.fcvtIntToBinary64 k, 1, none, some true),
      (.fcvtBinary32ToInt k, 2, some false, none), (.fcvtBinary64ToInt k, 3, some true, none),
      (.fcvtBinary32ToBinary64 k, 4, some false, some true), (.fcvtBinary64ToBinary32 k, 5, some true, some false)] →
    s.chip.ready k.val (.fcvt p.2.1) w = true →
    exec p.1 s = .next (s.after k.val (fun c =>
      let d := fn w 7 1 == 1
      let r := fcvtRes p.2.1 (scalarRm c k.val (fn w 11 3)) (if d then 72 else 36) (fn w 6 1 == 1) (fn w 5 1 == 1)
        (val c k.val (p.2.2.1.getD d) (wRa w))
      (putVal k.val (p.2.2.2.getD d) (wRd w) r.bits c).orFpsw k.val r.fl)))

/-- R154 to R156 and R158. -/
def Obligations.FloatSpecialValues : Prop :=
  ∀ (f : Fmt) (mode a b rel : Nat), f = fmt32 ∨ f = fmt64 →
    (isNaN f a = true → ∀ op < 4, fpuRes f op mode rel a b 0 = ⟨quiet f a, { nv := isSNaN f a || isSNaN f b }⟩) ∧
    (isNaN f a = false → isNaN f b = true → ∀ op < 4, fpuRes f op mode rel a b 0 = ⟨quiet f b, { nv := isSNaN f b }⟩) ∧
    (isNaN f a = false → a % f.signBit ≠ 0 → a % f.signBit ≠ f.infBits → b % f.signBit = 0 →
      fpuRes f 3 mode rel a b 0 = ⟨withSign f (fSign f a != fSign f b) f.infBits, { dz := true }⟩) ∧
    (a % f.signBit = 0 → b % f.signBit = 0 → fpuRes f 3 mode rel a b 0 = ⟨f.defaultNaN, { nv := true }⟩ ∧
      fpuRes f 5 mode 0 a b 0 = ⟨1, {}⟩) ∧
    (isNaN f a = true ∨ isNaN f b = true → (fpuRes f 5 mode rel a b 0).bits = (rel == 1 || rel == 6).toNat)

/-- Loads (R176 to R178, R284, Table 6-10); the double is two word accesses, the lower first (R7). -/
def Obligations.LoadsComplete : Prop :=
  ∀ (k : Fin 4) (s : State) (w : Word) (p : Instr × Nat),
    p ∈ [(Instr.scLdn k, 0o030), (.scLdns k, 0o031), (.scLdh k, 0o032), (.scLdhs k, 0o033), (.scLdw k, 0o034), (.scLdd k, 0o035)] →
    s.chip.ready k.val (.load p.2) w = true →
    let a := s.chip.w k.val (wRa w) + sextImm w
    let n := memWidth p.2
    let reqs := if n < 8 then [coreRd k.val a.toNat n s.chip] else [coreRd k.val a.toNat 4 s.chip, coreRd k.val (a.toNat + 4) 4 s.chip]
    a.toNat % n = 0 → (n = 8 → inPages a.toNat = false) →
    (∀ (rs : List Srv) (c1 : Chip), coreAccess k.val w reqs s.chip = (some rs, c1) → (∀ r ∈ rs, r.status = 0) →
      ((∀ r ∈ rs, r.mask = []) → exec p.1 s = .next (s.after k.val (fun _ =>
        if n < 8 then c1.setW k.val (wRd w) (
          match p.2 with
          | 0o030 => ((ansWord rs 0).setWidth 9).setWidth 36
          | 0o031 => ((ansWord rs 0).setWidth 9).signExtend 36
          | 0o032 => ((ansWord rs 0).setWidth 18).setWidth 36
          | 0o033 => ((ansWord rs 0).setWidth 18).signExtend 36
          | _ => ansWord rs 0)
        else c1.setPair k.val (wRd w) (ansWord rs 1 ++ ansWord rs 0)))) ∧
      ((∃ r ∈ rs, r.mask ≠ []) → exec p.1 s = .next (s.after k.val (fun _ => bankCheck k.val c1)))) ∧
    (∀ c1 : Chip, coreAccess k.val w reqs s.chip = (none, c1) → exec p.1 s = .next (s.on (fun _ => c1)))

/-- Stores (R176 to R178, Table 6-10). -/
def Obligations.StoresComplete : Prop :=
  ∀ (k : Fin 4) (s : State) (w : Word) (p : Instr × Nat),
    p ∈ [(Instr.scStn k, 0o040), (.scSth k, 0o041), (.scStw k, 0o042), (.scStd k, 0o043)] →
    s.chip.ready k.val (.store p.2) w = true →
    let c := s.chip
    let a := c.w k.val (wRa w) + sextImm w
    let n := memWidth p.2
    let reqs := if n < 8 then [coreWr k.val a.toNat n (c.w k.val (wRd w)) c]
      else [coreWr k.val a.toNat 4 (c.w k.val (wRd w)) c, coreWr k.val (a.toNat + 4) 4 (c.w k.val (wRd w + 1)) c]
    a.toNat % n = 0 → (n = 8 → inPages a.toNat = false) →
    (∀ (rs : List Srv) (c1 : Chip), coreAccess k.val w reqs c = (some rs, c1) → (∀ r ∈ rs, r.status = 0) →
      exec p.1 s = .next (s.after k.val (fun _ => c1))) ∧
    (∀ c1 : Chip, coreAccess k.val w reqs c = (none, c1) → exec p.1 s = .next (s.on (fun _ => c1)))

/-- LDR, STC, AADD and ASWAP (R180, R181, Table 6-11). -/
def Obligations.AtomicsComplete : Prop :=
  ∀ (k : Fin 4) (s : State) (w : Word) (p : Instr × Nat × Nat),
    p ∈ [(Instr.scLdr k, 0, opLdr), (.scStc k, 1, opStc), (.scAadd k, 2, opAadd), (.scAswap k, 3, opAswap)] →
    s.chip.ready k.val (.atom p.2.1) w = true → (s.chip.w k.val (wRa w)).toNat % 4 = 0 →
    let req := coreAt k.val p.2.2 (s.chip.w k.val (wRa w)).toNat (if p.2.1 = 0 then [] else nonetsOf (s.chip.w k.val (wRb w))) s.chip
    (∀ (r : Srv) (c1 : Chip), coreAccess k.val w [req] s.chip = (some [r], c1) → r.status = 0 → r.mask = [] →
      exec p.1 s = .next (s.after k.val (fun _ => c1.setW k.val (wRd w) (wordOf r.data)))) ∧
    (∀ c1 : Chip, coreAccess k.val w [req] s.chip = (none, c1) → exec p.1 s = .next (s.on (fun _ => c1)))

/-- What a core's own bank answers (R169, R176, R180, R181, R279, R283). -/
def Obligations.OwnBankAccess : Prop :=
  ∀ (k : Fin 4) (c : Chip) (w v : Word) (a n : Nat),
    bankBase k.val ≤ a → a + n ≤ bankBase k.val + 4 * bankWords k.val → (n = 1 ∨ n = 2 ∨ n = 4) → a % n = 0 →
    bankOn c k.val = true → bankClearing c k.val = false → bankWiping c k.val = false → (c.core k.val).xact = Xact.none →
    let atom (opc : Nat) (d : List (BitVec 9)) : Option (List Srv) × Chip := coreAccess k.val w [coreAt k.val opc a d c] c
    ((∀ i < n, nonetBad (c.cell (a + i)) = false) →
      coreAccess k.val w [coreRd k.val a n c] c = (some [⟨0, (List.range n).map (fun i => (c.cell (a + i)).setWidth 9), []⟩], c)) ∧
    coreAccess k.val w [coreWr k.val a n v c] c = (some [Srv.of 0], bankPut a ((nonetsOf v).take n) [] c) ∧
    (n = 4 → c.badNonets a = [] →
      atom opAadd (nonetsOf v) = (some [⟨0, nonetsOf (c.bankWord a), []⟩], c.bankWrite a (c.bankWord a + v) allNonets false) ∧
      atom opAswap (nonetsOf v) = (some [⟨0, nonetsOf (c.bankWord a), []⟩], c.bankWrite a v allNonets false) ∧
      atom opLdr [] = (some [⟨0, nonetsOf (c.bankWord a), []⟩], c.setCore k.val { c.core k.val with resv := some a }) ∧
      ((c.core k.val).resv = some a → (c.core k.val).failStc = false →
        (atom opStc (nonetsOf v)).1 = some [⟨0, nonetsOf 1, []⟩] ∧ (atom opStc (nonetsOf v)).2.bankWord a = v ∧
        ((atom opStc (nonetsOf v)).2.core k.val).resv = none) ∧
      ((c.core k.val).resv ≠ some a ∨ (c.core k.val).failStc = true →
        (atom opStc (nonetsOf v)).1 = some [⟨0, nonetsOf 0, []⟩] ∧ (atom opStc (nonetsOf v)).2.mem = c.mem ∧
        ((atom opStc (nonetsOf v)).2.core k.val).resv = none))

/-- Read after write in the scratch banks (R7, R79, R280, R299). -/
def Obligations.BankWordRoundTrip : Prop :=
  ∀ (c : Chip) (a : Nat) (v : Word) (ns : List Nat) (inv : Bool), (∀ n ∈ ns, n < 4) →
    let c' := c.bankWrite a v ns inv
    (∀ n ∈ ns, (c'.cell (a + n)).setWidth 9 = (v >>> (9 * n)).setWidth 9 ∧ nonetBad (c'.cell (a + n)) = inv) ∧
    (∀ b, (∀ n ∈ ns, b ≠ a + n) → c'.cell b = c.cell b) ∧ c'.mem.hbm = c.mem.hbm ∧
    (c.bankWrite a v allNonets false).bankWord a = v ∧ (c.bankWrite a v allNonets false).badNonets a = []

/-- Where loads, stores, atomics and JALR trap (R49, R176, R177, R180, R182, Table 6-13). -/
def Obligations.MemoryTraps : Prop :=
  ∀ (k : Fin 4) (s : State) (w : Word),
    let c := s.chip
    let a := c.w k.val (wRa w) + sextImm w
    let v := c.w k.val (wRd w)
    let trap (code : Nat) (v : Word) (c : Chip) : State := s.on (fun _ => trapAt k.val code (s.chip.pc k.val) v c)
    let fails (reqs : List (Nat × Pkt)) (i : Instr) (code : Nat) (v : Word) : Prop :=
      ∀ (rs : List Srv) (c1 : Chip), coreAccess k.val w reqs c = (some rs, c1) → (∃ r ∈ rs, r.status ≠ 0) → exec i s = .next (trap code v c1)
    (∀ p ∈ [(Instr.scLdn k, 0o030), (.scLdns k, 0o031), (.scLdh k, 0o032), (.scLdhs k, 0o033), (.scLdw k, 0o034), (.scLdd k, 0o035)],
      c.ready k.val (.load p.2) w = true →
      let n := memWidth p.2
      (a.toNat % n ≠ 0 → exec p.1 s = .next (trap 0o005 a c)) ∧
      (a.toNat % n = 0 → n = 8 → inPages a.toNat = true → exec p.1 s = .next (trap 0o003 a c)) ∧
      (a.toNat % n = 0 → n ≠ 8 ∨ inPages a.toNat = false →
        fails (if n < 8 then [coreRd k.val a.toNat n c] else [coreRd k.val a.toNat 4 c, coreRd k.val (a.toNat + 4) 4 c]) p.1 0o003 a)) ∧
    (∀ p ∈ [(Instr.scStn k, 0o040), (.scSth k, 0o041), (.scStw k, 0o042), (.scStd k, 0o043)],
      c.ready k.val (.store p.2) w = true →
      let n := memWidth p.2
      (a.toNat % n ≠ 0 → exec p.1 s = .next (trap 0o006 a c)) ∧
      (a.toNat % n = 0 → n = 8 → inPages a.toNat = true → exec p.1 s = .next (trap 0o004 a c)) ∧
      (a.toNat % n = 0 → n ≠ 8 ∨ inPages a.toNat = false →
        fails (if n < 8 then [coreWr k.val a.toNat n v c]
          else [coreWr k.val a.toNat 4 v c, coreWr k.val (a.toNat + 4) 4 (c.w k.val (wRd w + 1)) c]) p.1 0o004 a)) ∧
    (∀ p ∈ [(Instr.scLdr k, 0, opLdr), (.scStc k, 1, opStc), (.scAadd k, 2, opAadd), (.scAswap k, 3, opAswap)],
      c.ready k.val (.atom p.2.1) w = true →
      let b := c.w k.val (wRa w)
      (b.toNat % 4 ≠ 0 → exec p.1 s = .next (trap (if p.2.1 = 0 then 0o005 else 0o006) b c)) ∧
      (b.toNat % 4 = 0 → fails [coreAt k.val p.2.2 b.toNat (if p.2.1 = 0 then [] else nonetsOf (c.w k.val (wRb w))) c] p.1
        (if p.2.1 = 0 then 0o003 else 0o004) b)) ∧
    (c.ready k.val .jalr w = true → a.toNat % 4 ≠ 0 → exec (.scJalr k) s = .next (trap 0o007 a c))

/-- Control flow (R182, R183). -/
def Obligations.BranchesComplete : Prop :=
  ∀ (k : Fin 4) (s : State) (w : Word),
    let c := s.chip
    let pc := c.pc k.val
    let x := c.w k.val (wRd w)
    let y := c.w k.val (wRa w)
    (∀ p ∈ [(Instr.scBeq k, 0o050, decide (x = y)), (.scBne k, 0o051, decide (x ≠ y)), (.scBlt k, 0o052, decide (x.toInt < y.toInt)),
        (.scBge k, 0o053, decide (y.toInt ≤ x.toInt)), (.scBltu k, 0o054, decide (x.toNat < y.toNat)),
        (.scBgeu k, 0o055, decide (y.toNat ≤ x.toNat))],
      c.ready k.val (.branch p.2.1) w = true →
      exec p.1 s = .next (if p.2.2 then s.jumped k.val (pc + 4 * sextImm w) id else s.after k.val id)) ∧
    (c.ready k.val .j w = true → exec (.scJ k) s = .next (s.jumped k.val (4 * (wTgt w).setWidth 36) id)) ∧
    (c.ready k.val .jal w = true →
      exec (.scJal k) s = .next (s.jumped k.val (4 * (wTgt w).setWidth 36) (fun c => c.setW k.val 31 (pc + 4)))) ∧
    (c.ready k.val .jalr w = true → (y + sextImm w).toNat % 4 = 0 →
      exec (.scJalr k) s = .next (s.jumped k.val (y + sextImm w) (fun c => c.setW k.val (wRd w) (pc + 4)))) ∧
    (c.ready k.val .loop w = true → c.psw k.val pswLA = false → y ≠ 0 → zextImm w ≠ 0 →
      exec (.scLoop k) s = .next (s.on (fun c => retireOne k.val ((((((c.setSr k.val srLCNT y).setSr k.val srLBEG (pc + 4)).setSr k.val srLEND
        (pc + 4 * zextImm w)).setPsw k.val pswLA true)).setPc k.val (pc + 4))))) ∧
    (c.ready k.val .loop w = true → c.psw k.val pswLA = false → y = 0 ∨ zextImm w = 0 →
      exec (.scLoop k) s = .next (s.on (fun c => retireOne k.val (c.setPc k.val (pc + 4 + 4 * zextImm w)))))

/-- The end of an instruction (R164, R182, R183). -/
def Obligations.PcAfterAnInstruction : Prop :=
  ∀ (k : Fin 4) (c : Chip) (n : Nat) (t : Word),
    let next := c.pc k.val + BitVec.ofNat 36 n
    let last := c.psw k.val pswLA && next == c.sr k.val srLEND + 4
    let more := decide (1 < (c.sr k.val srLCNT).toNat)
    (advance k.val n c).pc k.val = (if last && more then c.sr k.val srLBEG &&& ~~~(3 : Word) else next) ∧
    (advance k.val n c).sr k.val srLCNT = (if last then (if more then c.sr k.val srLCNT - 1 else 0) else c.sr k.val srLCNT) ∧
    (advance k.val n c).psw k.val pswLA = (c.psw k.val pswLA && (!last || more)) ∧
    (jumpTo k.val t c).pc k.val = t ∧
    (jumpTo k.val t c).psw k.val pswLA =
      (c.psw k.val pswLA && decide ((c.sr k.val srLBEG).toNat ≤ t.toNat ∧ t.toNat ≤ (c.sr k.val srLEND).toNat)) ∧
    (∀ (j : Fin 4) (r : BitVec 5), (advance k.val n c).w j.val r = c.w j.val r ∧ (jumpTo k.val t c).w j.val r = c.w j.val r) ∧
    (∀ (j : Fin 4) (i : Fin 32), (j ≠ k ∨ (i.val ≠ srPC ∧ i.val ≠ srPSW ∧ i.val ≠ srLCNT)) →
      (advance k.val n c).sr j.val i.val = c.sr j.val i.val ∧ (jumpTo k.val t c).sr j.val i.val = c.sr j.val i.val) ∧
    (advance k.val n c).mem = c.mem ∧ (jumpTo k.val t c).mem = c.mem

/-- The SYS group (R148, R165, R184, R185, R197, R506, R507, Table 6-1, Table 6-12). -/
def Obligations.SystemInstructionsComplete : Prop :=
  ∀ (k : Fin 4) (s : State) (w v : Word),
    let c := s.chip
    let ready (f : Nat) : Prop := c.ready k.val (.sys f) w = true
    let i := fn w 6 8
    let a := c.w k.val (wRa w)
    (∀ p ∈ [(Instr.scNop k, 0), (.scFence k, 6), (.scIfence k, 7)], ready p.2 → exec p.1 s = .next (s.after k.val id)) ∧
    (ready 8 → arrayDrained c k.val = true → exec (.scAfence k) s = .next (s.after k.val id)) ∧
    (ready 1 → i ≠ 0o22 → i ≠ 0o25 → redPending c k.val i = false → (i = srFPSW → fpswPending c k.val = false) →
      exec (.scMfs k) s = .next (s.after k.val (fun c => c.setW k.val (wRd w) (srValue c k.val i)))) ∧
    (ready 1 → i = 0o22 → exec (.scMfs k) s = .next (s.after k.val (fun c =>
      (c.setCore k.val { c.core k.val with tallyCap := (c.tally >>> 36).setWidth 28 }).setW k.val (wRd w) (c.tally.setWidth 36)))) ∧
    (ready 1 → i = 0o25 → c.termRx k.val = some v →
      exec (.scMfs k) s = .next (s.after k.val (fun c => (c.setTermRx k.val none).setW k.val (wRd w) v))) ∧
    (ready 2 → i ≠ 0o24 → (i = srPSW → fieldOf a 4 5 ≤ 16) → (i = srFPSW → fpswPending c k.val = false) →
      exec (.scMts k) s = .next (s.after k.val (srWrite k.val i a))) ∧
    (ready 2 → i = 0o24 → c.termTx k.val = none →
      exec (.scMts k) s = .next (s.after k.val (fun c => (c.setTermTx k.val (some a)).raise pgGander 3))) ∧
    (ready 3 → exec (.scTrap k) s = .next (s.on (trapAt k.val 0o015 (c.pc k.val) (BitVec.ofNat 36 i)))) ∧
    (ready 4 → exec (.scRti k) s = .next (s.on (fun c => retireOne k.val (returnFromTrap k.val c)))) ∧
    (ready 5 → (topLevel c k.val).isSome = true → c.psw k.val pswIE = false →
      exec (.scWait k) s = .next (s.after k.val (fun c => c.setFlag (pgBw k.val) 3 2 false))) ∧
    (ready 5 → topLevel c k.val = none → exec (.scWait k) s = .next (s.on (fun c => c.setFlag (pgBw k.val) 3 2 true))) ∧
    (ready 9 → gaBit c k.val 0 = false → exec (.scBrk k) s = .next (s.on (trapAt k.val 0o016 (c.pc k.val) 0))) ∧
    (ready 9 → gaBit c k.val 0 = true →
      exec (.scBrk k) s = .next (s.on (fun c => askHalt k.val 0 3 (retireOne k.val (advance k.val 4 c)))))

/-- Taking a trap (R194 to R196, R198, R200, R204). -/
def Obligations.TrapEntryState : Prop :=
  ∀ (k : Fin 4) (c : Chip) (code : Nat) (tpc v : Word) (l : Fin 16),
    let entered (c' : Chip) (tpc cause v : Word) (ipl vector : Nat) : Prop :=
      c'.sr k.val srTPC = tpc ∧ c'.sr k.val srTPSW = c.sr k.val srPSW ∧ c'.sr k.val srTCAUSE = cause ∧ c'.sr k.val srTVAL = v ∧
      c'.psw k.val pswTH = true ∧ c'.psw k.val pswIE = false ∧ c'.psw k.val pswLA = false ∧
      c'.psw k.val pswC = c.psw k.val pswC ∧ c'.psw k.val pswV = c.psw k.val pswV ∧ c'.ipl k.val = ipl ∧
      (c'.core k.val).resv = none ∧ c'.flag (pgBw k.val) 3 2 = false ∧
      c'.pc k.val = c.sr k.val srTBASE + BitVec.ofNat 36 (0o20 * vector) ∧
      (∀ (j : Fin 4) (r : BitVec 5), c'.w j.val r = c.w j.val r) ∧ c'.mem = c.mem
    (c.psw k.val pswTH = false → code < 2 ^ 35 →
      entered (trapEntry k.val code tpc v c) tpc (BitVec.ofNat 36 code) v (c.ipl k.val) 0 ∧
      entered (mchkEntry k.val code v c) (c.pc k.val) (BitVec.ofNat 36 code) v (c.ipl k.val) 1) ∧
    entered (interruptEntry k.val l.val tpc c) tpc (BitVec.ofNat 36 (2 ^ 35 + l.val)) 0 (l.val + 1) (2 + l.val) ∧
    (c.psw k.val pswTH = true →
      trapEntry k.val code tpc v c = mchkEntry k.val code v c ∧ (trapEntry k.val code tpc v c).cpu = c.cpu ∧
      (trapEntry k.val code tpc v c).mem = c.mem ∧ (trapEntry k.val code tpc v c).dfault k.val = true ∧
      bitAt ((trapEntry k.val code tpc v c).reg (pgBw k.val) 6) 0 = true)

/-- An entry and RTI (R196, R197). -/
def Obligations.TrapThenReturn : Prop :=
  ∀ (k : Fin 4) (c : Chip) (code : Nat) (tpc v : Word), c.psw k.val pswTH = false → c.sr k.val srPSW &&& ~~~(0x3ff : Word) = 0 →
    let c' := returnFromTrap k.val (trapEntry k.val code tpc v c)
    c'.pc k.val = tpc ∧ c'.sr k.val srPSW = c.sr k.val srPSW ∧ (c'.core k.val).resv = none ∧
    (∀ (j : Fin 4) (r : BitVec 5), c'.w j.val r = c.w j.val r) ∧ c'.mem = c.mem ∧
    (∀ (j : Fin 4) (i : Fin 32), (j ≠ k ∨ (i.val ≠ srPC ∧ ¬ (3 ≤ i.val ∧ i.val ≤ 6))) → c'.sr j.val i.val = c.sr j.val i.val)

/-- Boundaries and coprocessor requests (R81, R168, R191 to R193, R198, R200). -/
def Obligations.CoreEventsComplete : Prop :=
  ∀ (k : Fin 4) (s : State),
    let c := s.chip
    (∀ l : Nat, mayRun c k.val = true → (c.core k.val).halt = none → (c.core k.val).xact = Xact.none →
      ((c.core k.val).stepping = false ∨ c.flag pgGander 2 12 = true) → c.psw k.val pswIE = true →
      topLevel c k.val = some l →
      exec (.interruptEntry k) s = .next (s.on (fun c =>
        let c := if c.flag (pgBw k.val) 3 2 then retireOne k.val (advance k.val 4 c) else c
        stepEnd k.val (interruptEntry k.val l (c.pc k.val) c)))) ∧
    (∀ (m : MChk) (ms : List MChk), (c.core k.val).mchk = m :: ms → c.pwr.off = false → c.running k.val = true →
      c.halted k.val = false → c.dfault k.val = false → (c.core k.val).stop = false → (c.core k.val).cop = none →
      (c.core k.val).xact = Xact.none → divHold c k.val = false → (c.core k.val).halt = none → c.behind k.val = false →
      exec (.machineCheckEntry k) s = .next (s.on (fun c =>
        stepEnd k.val (mchkEntry k.val m.code m.tval (c.setCore k.val { c.core k.val with mchk := [] }))))) ∧
    (let bw := pgBw (if c.linked then 0 else k.val)
     ∀ (w : Word) (t : Nat), c.ready k.val .cop w = true → c.flag bw 17 3 = true → c.fld bw 17 0 3 = t → tileOff c t = false →
      2 ≤ c.tileState t →
      exec (.scCop k) s = .next (s.on (fun c => c.setCore k.val { c.core k.val with
        cop := some { num := BitVec.ofNat 4 (wOp w), func := wFunc w, rd := wRd w, va := c.w k.val (wRa w), vb := c.w k.val (wRb w),
                      vd := c.w k.val (wRd w), tile := t, sent := !c.linked, taken := false, tag := 0, vc := false } }))) ∧
    (∀ q : CopReq, (c.core k.val).cop = some q → q.sent = true → c.pwr.off = false → c.linked = false → c.halted k.val = false →
      c.dbg.cmd = none →
      exec (.copTimeout k) s = .next (s.on (fun c =>
        trapAt k.val 0o020 (c.pc k.val) 1 (c.setCore k.val { c.core k.val with cop := none })))) ∧
    (∀ w tail : Word, c.about k.val w = true → tagOf w = none →
      (0o140 ≤ wOp w → wOp w ≤ 0o157 → c.holds k.val (c.pc k.val + 4) tail = true) →
      exec (.unassignedOpcode k) s = .next (s.on (trapAt k.val 0o001 (c.pc k.val) w)))

/-- RUN (R203, R536), the core reset (R166) and the watchdog (R205, R206). -/
def Obligations.RunAndWatchdogComplete : Prop :=
  ∀ (k : Fin 4) (s : State) (who : Who) (v : Word),
    let c := s.chip
    (c.takes who (pgBw k.val) 2 1 = true → c.linked = false → (c.core k.val).stop = false → c.running k.val = false →
      gaBit (coreRelease k.val (c.setFlag (pgBw k.val) 2 0 true)) k.val 4 = false →
      exec (.bwRunRelease who k) s = .next (s.on (fun c =>
        ((c.setFlag (pgBw k.val) 2 0 true).setPc k.val (c.reg (pgBw k.val) 16)).setFlag (pgBw k.val) 3 0 true))) ∧
    (c.takes who (pgBw k.val) 2 0 = true → c.linked = false → c.running k.val = true → c.istop k.val = false → c.mHeld k.val = false →
      exec (.bwRunStop who k) s = .next (s.on (fun c =>
        let c' := (alignCores k.val c).setFlag (pgBw k.val) 2 0 false
        (c'.setCore k.val { c'.core k.val with
          stop := true, rerun := false, runTo := if c.dfault k.val then 0 else (c.core k.val).retired }).setFld (pgBw k.val) 3 2 2 0))) ∧
    (c.pwr.off = false → c.linked = false → (c.core k.val).stop = true → (c.core k.val).rerun = false → (c.core k.val).cop = none →
      (c.core k.val).xact = Xact.none → (c.core k.val).queue = [] → c.istop k.val = false → c.mHeld k.val = false → (c.mseq k.val).active = false → (c.mseq k.val).voted = none → (c.mseq k.val).reds = [] →
      exec (.coreResetHold k) s = .next (s.on (coreResetBy k.val 1)) ∧
      (coreResetBy k.val 1 c).running k.val = false ∧ (coreResetBy k.val 1 c).termTx k.val = none ∧
      (coreResetBy k.val 1 c).termRx k.val = none ∧ ∀ r : BitVec 5, (coreResetBy k.val 1 c).w k.val r = 0) ∧
    (c.pwr.off = false → wdgCounts c k.val = true → c.fld (pgWdg k.val) 17 0 24 = 0 → wdgHalt c k.val = false → wdgStage c k.val = 0 →
      exec (.watchdogExpiry k) s = .next (s.on (fun c =>
        ((c.setReg (pgWdg k.val) 17 (BitVec.ofNat 36 (c.fld (pgWdg k.val) 16 0 24))).setFld (pgWdg k.val) 3 0 2 1).raise (pgWdg k.val) 0))) ∧
    (c.takes who (pgWdg k.val) 18 1 = true → wdgStage c k.val ≠ 2 →
      exec (.wdgKick who k) s = .next (s.on (fun c =>
        (c.setReg (pgWdg k.val) 17 (BitVec.ofNat 36 (c.fld (pgWdg k.val) 16 0 24))).setFld (pgWdg k.val) 3 0 2 0))) ∧
    (c.takes who (pgWdg k.val) 16 v = true →
      exec (.wdgPeriodWrite who k v) s = .next (s.on (fun c => wdgReload k.val (maskWrite (pgWdg k.val) 16 v c))) ∧
      (wdgReload k.val (maskWrite (pgWdg k.val) 16 v c)).fld (pgWdg k.val) 17 0 24 = fieldOf v 0 24)

/-- Issue (R94, R97, R101, R103, R121, R186, R187). -/
def Obligations.ArrayIssueCompletes : Prop :=
  ∀ (k : Fin 4) (s : State) (head tail : Word) (p : Instr × AOp),
    p ∈ [(Instr.arrLogic k, AOp.logic), (.arrRlog k, .rlog), (.arrAdd k, .add), (.arrSub k, .sub), (.arrAddc k, .addc), 
      (.arrNeg k, .neg), (.arrAdds k, .adds), (.arrSubs k, .subs), (.arrShl k, .shl), (.arrShr k, .shr), (.arrRot k, .rot), 
      (.arrMul k, .mul), (.arrDiv k, .div), (.arrGadd k, .gadd), (.arrGsub k, .gsub), (.arrGadds k, .gadds), 
      (.arrGneg k, .gneg), (.arrGshl k, .gshl), (.arrGshr k, .gshr), (.arrGrot k, .grot), (.arrGmul k, .gmul), 
      (.arrGdiv k, .gdiv), (.arrCmp k, .cmp), (.arrCmps k, .cmps), (.arrGcmp k, .gcmp), (.arrGcmps k, .gcmps), 
      (.arrMax k, .max), (.arrMin k, .min), (.arrMset k, .mset), (.arrMld k, .mld), (.arrMst k, .mst), (.arrMand k, .mand), 
      (.arrMpush k, .mpush), (.arrMpop k, .mpop), (.arrMelse k, .melse), (.arrMove k, .move), (.arrRowb k, .rowb), 
      (.arrColb k, .colb), (.arrBcast k, .bcast), (.arrGbcast k, .gbcast), (.arrFadd k, .fadd), (.arrFsub k, .fsub), 
      (.arrFmul k, .fmul), (.arrFdiv k, .fdiv), (.arrFma k, .fma), (.arrFcmp k, .fcmp), (.arrBell k, .bell), 
      (.arrCount k, .count), (.arrFirst k, .first), (.arrTwist k, .twist), (.arrPfence k, .pfence), (.arrPres k, .pres)] →
    s.chip.ready k.val (.arr p.2) head = true → s.chip.holds k.val (s.chip.pc k.val + 4) tail = true →
    let c := s.chip
    let x := fieldsOf head tail
    let depth := (c.sr k.val srMSDEPTH).toNat
    issueLegal p.2 x (captureS c k.val p.2 x) = true → ¬ (c.psw k.val pswLA = true ∧ c.sr k.val srLEND = c.pc k.val) →
    (p.2 = .mpush → x.n = 1 → depth < 16) → (p.2 = .mpop ∨ p.2 = .melse → x.n = 1 → depth ≠ 0) → c.istop k.val = false →
    (c.core k.val).queue.length < 64 →
    exec p.1 s = .next (s.on (fun c =>
      let it : QItem := { head := head, tail := tail, sop := captureS c k.val p.2 x, rm := BitVec.ofNat 2 (fieldOf (c.sr k.val srFPSW) 5 2),
                          pc := c.pc k.val }
      let c1 := (c.setCore k.val { c.core k.val with queue := (c.core k.val).queue ++ [it] }).setSr k.val srMSDEPTH
        (BitVec.ofNat 36 (depthAfter it depth))
      let c2 := retireOne k.val (advance k.val 8 c1)
      if c2.linked then c2 else mseqStart k.val c2))

/-- The precise traps of issue (R101, R103, R186, R189, Table 6-13). -/
def Obligations.ArrayIllegalTraps : Prop :=
  ∀ (k : Fin 4) (s : State) (head tail : Word) (o : AOp),
    s.chip.ready k.val (.arr o) head = true → s.chip.holds k.val (s.chip.pc k.val + 4) tail = true →
    let c := s.chip
    let x := fieldsOf head tail
    let bad := issueLegal o x (captureS c k.val o x) = false ∨ (c.psw k.val pswLA = true ∧ c.sr k.val srLEND = c.pc k.val)
    let deep := o = .mpush ∧ x.n = 1 ∧ 16 ≤ (c.sr k.val srMSDEPTH).toNat
    let shallow := (o = .mpop ∨ o = .melse) ∧ x.n = 1 ∧ c.sr k.val srMSDEPTH = 0
    let t (code : Nat) (v : Word) : State := s.on (trapAt k.val code (c.pc k.val) v)
    (bad → s.array k o = .next (t 0o001 head)) ∧
    (¬ bad → deep → s.array k o = .next (t 0o012 0)) ∧
    (¬ bad → shallow → s.array k o = .next (t 0o013 0)) ∧
    (¬ bad → ¬ deep → ¬ shallow → c.istop k.val = true → c.behind k.val = false → s.array k o = .next (t 0o014 head)) ∧
    (∀ (code : Nat) (v : Word), (t code v).chip.arr = c.arr ∧ ((t code v).chip.core k.val).queue = (c.core k.val).queue ∧
      (t code v).chip.sr k.val srMSDEPTH = c.sr k.val srMSDEPTH)

/-- R113 to R116 and R122 in one lamb, on fields of n bits. -/
def Obligations.SerialArithmetic : Prop :=
  ∀ (x : AFields) (rm : BitVec 2) (a b s : BitVec x.len) (d full : Nat) (cy f : Bool), 0 < x.len →
    let go (op : AOp) : LambRes := serialLamb op x rm s.toNat a.toNat b.toNat d full cy f
    (go .add).d = (a + b).toNat ∧ (go .add).c = decide (2 ^ x.len ≤ a.toNat + b.toNat) ∧
    (go .sub).d = (a - b).toNat ∧ (go .sub).c = decide (b.toNat ≤ a.toNat) ∧
    (go .addc).d = (a + b + BitVec.ofNat x.len cy.toNat).toNat ∧ (go .addc).c = decide (2 ^ x.len ≤ a.toNat + b.toNat + cy.toNat) ∧
    (go .neg).d = (-a).toNat ∧ (go .neg).c = (a == 0) ∧
    (go .adds).d = (a + s).toNat ∧ (go .adds).c = decide (2 ^ x.len ≤ a.toNat + s.toNat) ∧
    (go .subs).d = (a - s).toNat ∧ (go .subs).c = decide (s.toNat ≤ a.toNat) ∧
    (x.fl = 0 → ∀ op ∈ [AOp.add, .sub, .addc, .neg, .adds, .subs], (go op).f = f) ∧
    (go .shl).d = (a <<< full).toNat ∧ (go .rot).d = (a.rotateLeft full).toNat ∧
    (go .shr).d = (if x.sgn then a.sshiftRight full else a >>> full).toNat ∧
    (∀ op ∈ [AOp.shl, .shr, .rot], (go op).c = cy ∧ (go op).f = f) ∧ (go .mul).f = f ∧
    ((go .mul).d : Int) = (if x.sgn then a.toInt * b.toInt else a.toNat * b.toNat) % 2 ^ (2 * x.len) ∧ (go .mul).c = false ∧
    (b = 0 → (go .div).d = (BitVec.allOnes x.len).toNat + a.toNat <<< x.len ∧ (go .div).f = true ∧ (go .div).c = false ∧ (go .div).dz = true) ∧
    (b ≠ 0 → x.sgn = false → (go .div).d = (a / b).toNat + (a % b).toNat <<< x.len ∧ (go .div).f = false ∧ (go .div).dz = false) ∧
    (b ≠ 0 → x.sgn = true → (go .div).d = (a.sdiv b).toNat + (a.srem b).toNat <<< x.len ∧
      (go .div).c = (a == BitVec.intMin x.len && b == -1#x.len)) ∧
    (go .cmp).c = relHolds x.rel (if x.sgn then a.toInt else a.toNat) (if x.sgn then b.toInt else b.toNat) ∧
    (go .cmps).c = relHolds x.rel (if x.sgn then a.toInt else a.toNat) (if x.sgn then s.toInt else s.toNat) ∧
    (∀ op ∈ [AOp.cmp, .cmps], (go op).f = combine x.fl f (go op).c) ∧
    (go .bcast).d = s.toNat ∧ (go .bcast).c = cy ∧ (go .bcast).f = f

/-- The index 4P + 2Q + R (R69), bit by bit over a lamb row. -/
def Obligations.TruthTables : Prop :=
  ∀ (t : BitVec 8) (p q r : Word) (j : Nat), j < 36 →
    bitAt (lut t p q r) j = t.getLsbD (4 * (bitAt p j).toNat + 2 * (bitAt q j).toNat + (bitAt r j).toNat)

/-- The fold-row carry chain (R75, R76) with the tables of a full adder is a 36-bit adder. -/
def Obligations.CarryChain : Prop :=
  ∀ (p q : Word) (c0 : Bool), lut 0x96 p q (chainIn 0xE8 p q c0) = p + q + ofBool c0

/-- R71, R72, R79, R82 and R93 in one lamb row. -/
def Obligations.MaskedWrites : Prop :=
  ∀ (old : BitVec 40) (v mask : Word) (me : LambRow) (b : BeatWord) (g k : Word) (j : Nat), j < 36 →
    bitAt (sliceData (mergeSlice old v mask false).1) j = (if bitAt mask j then bitAt v j else bitAt (sliceData old) j) ∧
    (b.all = false → bitAt me.m j = false →
      bitAt (rowRegs me b g k).c j = bitAt me.c j ∧ bitAt (rowRegs me b g k).f j = bitAt me.f j ∧
      bitAt (rowRegs me b g k).m j = false ∧ bitAt (rowRegs me b g k).x j = bitAt me.x j ∧
      bitAt (rowRegs me b g k).t j = bitAt me.t j) ∧
    (sliceBad old = 0 → sliceBad (mergeSlice old v mask false).1 = 0 ∧ (mergeSlice old v mask false).2 = 0) ∧
    (sliceBad old = 0 → ∀ n < 4, (sliceBad (mergeSlice old v mask true).1).getLsbD n = decide (fieldOf mask (9 * n) 9 ≠ 0))

/-- R40, R83, R87, R88, R91 and R222. -/
def Obligations.BeatCommandsComplete : Prop :=
  ∀ (s : State),
    let c := s.chip
    c.pwr.off = false →
    (∀ (f : Fin 960) (x err : BitVec 168), c.onBridge (foldDie f.val) = some x → c.foldDead f.val = false → c.rxOf f.val = none →
      f.val ∈ activeFolds c (foldDie f.val) →
      (∀ w : BeatWord, frameWord (x ^^^ err) (expectedBeat c (foldDie f.val)) = some w →
        exec (.beatFrame f err) s = .next (s.on (fun c => (c.setRx f.val (some w)).setFlag (foldPage f.val) 3 1 true))) ∧
      (frameWord (x ^^^ err) (expectedBeat c (foldDie f.val)) = none →
        exec (.beatFrame f err) s = .next (s.on (fun c => controlCheck (foldDie f.val) 5 (foldDie f.val) (foldCol f.val) (foldRow f.val) 2
          ((c.killFold f.val).raise (foldPage f.val) 2))))) ∧
    (∀ (f : Fin 960) (w : BeatWord), c.rxOf f.val = some w → c.foldDead f.val = false →
      exec (.foldStall f) s = .next (s.on (fun c => controlCheck (foldDie f.val) 5 (foldDie f.val) (foldCol f.val) (foldRow f.val) 3
        ((c.killFold f.val).raise (foldPage f.val) 1)))) ∧
    (∀ (k : Fin 4) (w : BeatWord), c.linked = false → c.mode ≠ modeQuiescent → (c.onBridge k.val).isSome = true → c.halted k.val = false →
      activeFolds c k.val ≠ [] → (∀ f ∈ activeFolds c k.val, c.rxOf f = some w ∧ c.foldDead f = false) →
      ∃ t : State, exec (.beat k) s = .next t ∧
        t.chip.arr.planes = (beat (c.flockCols k.val) (fun _ => w) c).2.arr.planes ∧
        t.chip.arr.lambs = (beat (c.flockCols k.val) (fun _ => w) c).2.arr.lambs ∧
        ((c.mseq k.val).fence = false → t.chip.arr.work = (beat (c.flockCols k.val) (fun _ => w) c).2.arr.work) ∧
        ((c.mseq k.val).fence = true → (t.chip.mseq k.val).active = false ∧ (t.chip.mseq k.val).fence = false) ∧
        t.chip.onBridge k.val = none ∧ (∀ f ∈ activeFolds c k.val, t.chip.rxOf f = none) ∧
        (w.sample = true → t.chip.mseq k.val ≠ c.mseq k.val ∧
          ((t.chip.mseq k.val).reds.getLast?).map Red.count = some (sampleCount (c.flockCols k.val) w.all t.chip))) ∧
    (∀ m : Nat, c.pwr.clearing = true → c.pwr.booting = false → c.pwr.target = some m → m < 8 →
      ∃ t : State, exec .planeClearDone s = .next t ∧ t.chip.mode = m ∧ t.chip.pwr.clearing = false ∧ t.chip.pwr.target = none ∧
        t.chip.flag pgHub 18 7 = false ∧ t.chip.arr = c.arr) ∧
    (∀ (k : Fin 4) (r : Red) (rest : List Red), (c.mseq k.val).reds = r :: rest →
      ∃ t : State, exec (.reductionDeliver k) s = .next t ∧ (t.chip.mseq k.val).reds = rest ∧
        (r.rupd ≠ 0 → t.chip.sr k.val srBELL = ofBool r.bell) ∧ (r.rupd = 0 → t.chip.sr k.val srBELL = c.sr k.val srBELL) ∧
        (t.chip.sr k.val srCOUNT = if r.rupd = 2 then BitVec.ofNat 36 r.count else c.sr k.val srCOUNT) ∧
        (t.chip.sr k.val srFIRST = if r.rupd = 3 then r.first else c.sr k.val srFIRST))

/-- R210, R217 to R220, R225, R226 and R232. -/
def Obligations.MicrowordsComplete : Prop :=
  (∀ (k : Fin 4) (s : State) (w : Mword),
    let c := s.chip
    let stored := csStored c k.val (c.mseq k.val).upc.toNat
    c.pwr.off = false → mseqReady c k.val = true → (c.mseq k.val).ending = false → (c.mseq k.val).rom = none → csBad stored = none → stored.setWidth 144 = w →
    (∀ p ∈ [(Instr.microCont k, 1), (.microCall k, 2), (.microRet k, 3), (.microEnd k, 4), (.microWaitb k, 5)],
      w.seqop = p.2 → microLegal (c.mseq k.val) w = true → (w.beat = true ∨ p.2 = 4 → c.onBridge k.val = none) →
      (p.2 = 5 ∨ (∃ i < 4, w.cs i = 4) → bellPending c k.val = false) →
      let sent := if w.beat then sendBeat k.val w c else c
      let m := microUpdate (sent.mseq k.val) w
      let c' := sent.setMseq k.val { m with
        upc := if p.2 = 3 then m.mstack.headD 0 else if p.2 = 4 then m.upc else nextAddr m w
        mstack := stackAfter m w, atCkpt := w.ckpt && p.2 != 4, pos := m.pos + 1, dry := if w.beat then 0 else m.dry + 1, since := if w.ckpt then 0 else m.since }
      exec p.1 s = .next (s.on (fun _ =>
        if p.2 ≠ 4 then c' else if w.beat then c'.modMseq k.val (fun m => { m with ending := true }) else completeRam k.val c'))) ∧
    (w.seqop = 0 ∨ 5 < w.seqop → exec (.reservedSeqop k) s = .next (s.on (mwerrStop k.val)))) ∧
  (∀ (k : Fin 4) (s : State), s.chip.pwr.off = false → mseqReady s.chip k.val = true → (s.chip.mseq k.val).ending = true →
    (s.chip.mseq k.val).rom = none → s.chip.onBridge k.val = none → exec (.microEnd k) s = .next (s.on (completeRam k.val))) ∧
  (∀ (k : Fin 4) (s : State), s.chip.pwr.off = false → mseqReady s.chip k.val = true → (s.chip.mseq k.val).rom.isSome = true →
    exec (.microEnd k) s = .next (s.on (romEnd k.val)) ∧ exec (.microCont k) s = .next (s.on (romCkpt k.val))) ∧
  (∀ (k : Fin 4) (s : State) (who : Who) (v : Word), s.chip.takes who (pgMseq k.val) 33 v = true →
    let a := s.chip.fld (pgMseq k.val) 29 0 13
    exec (.csdataCommit who k v) s = .next (s.on (fun c => (setCs k.val a (v ++ (c.mseq k.val).csdata) c).setReg (pgMseq k.val) 29
      (BitVec.ofNat 36 (if a = 8191 then 4096 else a + 1)))) ∧
    (4096 ≤ a → csStored (setCs k.val a (v ++ (s.chip.mseq k.val).csdata) s.chip) k.val a = csStore (v ++ (s.chip.mseq k.val).csdata)))

/-- The parity of the control store (R209, R213). -/
def Obligations.MicrowordParity : Prop :=
  ∀ w : Mword, csBad (csStore w) = none ∧ (csStore w).setWidth 144 = w ∧
    ∀ i < 160, csBad (csStore w ^^^ (1#160 <<< i)) ≠ none

/-- The frame of Table 7-6 and its check (R88, R222). -/
def Obligations.BeatFrameCode : Prop :=
  ∀ (no : Word) (w : BeatWord) (expect : BitVec 24),
    (expect = no.setWidth 24 → frameWord (frameOf no w) expect = some w ∧
      ∀ i < 168, frameWord (frameOf no w ^^^ (1#168 <<< i)) expect = none) ∧
    (expect ≠ no.setWidth 24 → frameWord (frameOf no w) expect = none)

/-- R216, R227 to R231 and R233. -/
def Obligations.SequencerCommandsComplete : Prop :=
  ∀ (k : Fin 4) (s : State) (who : Who),
    let c := s.chip
    let p := pgMseq k.val
    let done (f : Chip → Chip) : State := s.on (fun c => (f c).setFld p 2 0 3 0)
    (∀ (it : QItem) (rest : List QItem), c.pwr.off = false → c.linked = false → inPres c k.val = false → (c.core k.val).flush = false →
      (c.core k.val).queue = it :: rest →
      mayStart c k.val it = true → exec (.mseqStart k) s = .next (s.on (begin k.val it))) ∧
    (c.linked = false → c.halted k.val = false →
      (c.takes who p 2 1 = true → exec (.preempt who k) s = .next (done (fun c => c.modMseq k.val (fun m => { m with preempt := true })))) ∧
      (c.takes who p 2 2 = true → exec (.mseqResume who k) s = .next (done (resumeHeld k.val))) ∧
      (c.takes who p 2 3 = true → exec (.mseqDiscard who k) s = .next (done (discardCmd k.val))) ∧
      (c.takes who p 2 4 = true → reservedFor c k.val [svcRange c k.val] = false →
        exec (.mseqSave who k) s = .next (done (saveCmd k.val))) ∧
      (c.takes who p 2 5 = true → reservedFor c k.val [svcRange c k.val] = false →
        exec (.mseqRestore who k) s = .next (done (restoreCmd k.val)))) ∧
    (c.pwr.off = false → c.pwr.target = none → c.linked = false → (c.mseq k.val).preempt = true → c.mHeld k.val = false →
      c.mStopped k.val = false →
      ((c.mseq k.val).active = false → exec (.preemptTakeEffect k) s = .next (s.on (fun c =>
        ((((c.setReg p 16 0).setMseq k.val { c.mseq k.val with preempt := false }).setFlag p 3 2 true).setFlag p 3 1 false).raise p 1))) ∧
      ((c.mseq k.val).active = true → (c.mseq k.val).atCkpt = true → (c.mseq k.val).rom = none → c.onBridge k.val = none →
        ∃ t : State, exec (.preemptTakeEffect k) s = .next t ∧ contextSlots t.chip k.val = contextOf (c.mseq k.val) ∧
          t.chip.mHeld k.val = true ∧ t.chip.flag p 3 1 = false ∧ (t.chip.mseq k.val).active = true ∧ (t.chip.mseq k.val).preempt = false)) ∧
    (∀ it : QItem, c.pwr.off = false → c.linked = true → c.voteState = 1 → (c.mseq 0).voted = none →
      (∀ j : Fin 4, (c.core j.val).queue.head? = some it) →
      let t := s.on (fun c => cores4.foldl (fun c j => c.modMseq j (fun m => { m with voted := some it })) c)
      exec (.voteCompare false) s = .next t ∧ (c.fld pgVote 16 0 24 ≠ 0 → exec (.voteWindowExpiry false) s = .next t)) ∧
    (∀ q : CopReq, c.pwr.off = false → c.linked = true → c.voteState = 1 → q.sent = false → (∀ j : Fin 4, (c.core j.val).cop = some q) →
      let t := s.on (fun c => cores4.foldl (fun c j =>
        c.setCore j { c.core j with cop := some { q with sent := true, tile := c.fld (pgBw 0) 17 0 3 } }) c)
      exec (.voteCompare true) s = .next t ∧ (c.fld pgVote 16 0 24 ≠ 0 → exec (.voteWindowExpiry true) s = .next t)) ∧
    (∀ it : QItem, c.pwr.off = false → c.linked = true → c.voteState = 1 → (c.mseq 0).voted = none → c.fld pgVote 16 0 24 ≠ 0 →
      (c.core k.val).queue = [] → (∀ j : Fin 4, j ≠ k → (c.core j.val).queue.head? = some it) →
      ∃ t : State, exec (.voteWindowExpiry false) s = .next t ∧ (∀ j : Fin 4, (t.chip.mseq j.val).voted = some it) ∧
        (t.chip.core k.val).queue.head? = some it ∧ (∀ r : BitVec 5, t.chip.w k.val r = c.w (if k = 0 then 1 else 0) r) ∧
        t.chip.voteState = 1 ∧ t.chip.flag pgVote 6 0 = true) ∧
    (∀ cop : Bool, c.fld pgVote 16 0 24 = 0 → exec (.voteWindowExpiry cop) s = .next s)

/-- The majority of R233. -/
def Obligations.VoteMajority : Prop :=
  ∀ (a b c d : Option QItem),
    let l := [a, b, c, d]
    (∀ v odd, majority l = some (v, odd) →
      odd.length ≤ 1 ∧ (∀ j < 4, j ∈ odd ↔ l.getD j none ≠ some v)) ∧
    (majority l = none ↔ ∀ v : QItem, (l.filter (fun x => x == some v)).length ≤ 2)

/-- R248 to R263. -/
def Obligations.CornerTurnComplete : Prop :=
  ∀ (s : State) (die : Fin 4) (p : Fin 9) (ch : Fin 16) (who : Who),
    let c := s.chip
    let x := c.chan die.val p.val ch.val
    let put (y : Chan) : State := s.on (fun c => c.setChan die.val p.val ch.val y)
    c.pwr.off = false →
    (∀ mask : BitVec 16, c.takes who (pgCtu die.val p.val) 17 (mask.setWidth 36) = true →
      exec (.ctuChstart who die p mask) s = .next (s.on (fun c =>
        ((List.range 16).filter (fun i => mask.getLsbD i)).foldl (fun c i => chanStart die.val p.val i 0 c) c))) ∧
    (c.takes who (pgCtu die.val p.val) 18 (BitVec.ofNat 36 (2 ^ ch.val)) = true → x.st = 4 → x.code = none →
      x.outbound = false →
      exec (.ctuChabort who die p (BitVec.ofNat 16 (2 ^ ch.val))) s = .next (put { x with code := some 0o13, nochain := true, resv := false })) ∧
    (x.st = 1 → x.code = none → (∀ o < 16, o ≠ ch.val → (c.chan die.val p.val o).st = 1 → (c.chan die.val p.val o).code = none → x.order < (c.chan die.val p.val o).order) →
      slotsUsed c die.val p.val < 4 → exec (.slotGrant die p ch) s = .next (put { x with st := 2 })) ∧
    (∀ (r : Srv) (ws : List Word) (c1 : Chip), x.st = 2 → x.code = none → p.val < (c.dieCols die.val).length →
      chanGather die.val p.val ch.val (opRd, request (.ctu die.val) true (entryAddr c die.val p.val ch.val 0) 32 [] [] c) c = (some r, c1) →
      entryWords r = some ws →
      let y := { c1.chan die.val p.val ch.val with words := ws }
      exec (.descriptorFetchDone die p ch) s = .next (s.on (fun _ => c1.setChan die.val p.val ch.val
        (match chanCheck y with
          | some code => { y with code := some code }
          | none => if y.empty then { y with code := some 0o01 } else { y with st := 3 })))) ∧
    (x.st = 3 → x.code = none → (∀ o < 16, o ≠ ch.val → (c.chan die.val p.val o).order < x.order →
        ((c.chan die.val p.val o).st = 1 ∨ (c.chan die.val p.val o).st = 2 → (c.chan die.val p.val o).code ≠ none) ∧
        (3 ≤ (c.chan die.val p.val o).st → chansOverlap x (c.chan die.val p.val o) = false)) → (∀ r ∈ busyRanges c die.val, rangesMeet (x.pl, x.cnt) r = false) →
      exec (.reservationPlace die p ch) s = .next (put { x with st := 4, resv := true })) ∧
    (∀ sev : List Sev,
      let o := x.fill % x.pieceOctets
      let a := x.haddr + x.fill / x.pieceOctets * x.stride + o
      let n := chunkLen (a - o) x.pieceOctets o
      x.st = 4 → x.outbound = false → x.code = none → x.fill / x.pieceOctets < x.pieces → hbmUp c die.val = true →
      queuedBlock c die.val p.val a n = false → (o = 0 → stagingRoom c die.val p.val x.slicesPer = true) →
      ∃ t : State, exec (.stagingFill die p ch sev) s = .next t ∧ (t.chip.chan die.val p.val ch.val).fill = x.fill + n ∧
        ∀ i < n, SMap.get (fun _ => 0) (t.chip.chan die.val p.val ch.val).stage (x.fill + i) =
          ((c.hbmRead die.val a n 0 p.val sev).1.getD i 0)) ∧
    (x.st = 4 → x.code = none → x.moved < x.total → c.halted die.val = false →
      (x.outbound = true → exec (.portAccess die p ch) s = .next (s.on (portOut die.val p.val ch.val x))) ∧
      (x.outbound = false → x.slicesPer * (x.fill / x.pieceOctets) ≤ x.moved →
        exec (.portAccess die p ch) s = .next (s.on (fun c => c.count (pgCtu die.val p.val) 20 1))) ∧
      (x.outbound = false → x.moved < x.slicesPer * (x.fill / x.pieceOctets) → (stagedSlice x x.moved).2 = 0 →
        exec (.portAccess die p ch) s = .next (s.on (fun c =>
          let pr := x.place x.moved
          let y := { x with moved := x.moved + 1 }
          (portWrite (ctuFold c die.val p.val pr.2) pr.1 (pr.2 % 36) (stagedSlice x x.moved).1 0 c).setChan die.val p.val ch.val
            (if y.moved % x.slicesPer = 0 then y.dropPiece (x.moved / x.slicesPer) else y))))) ∧
    (x.st = 4 → x.resv = true → x.total ≤ x.moved →
      exec (.reservationClear die p ch) s = .next (put { x with resv := false, st := if x.outbound then 5 else 4, code := some 0o00 })) ∧
    (∀ (code : Nat) (c1 : Chip), x.code = some code → x.resv = false → x.wq = [] →
      (if p.val < (c.dieCols die.val).length then ∃ r, chanGather die.val p.val ch.val (opWr, request (.ctu die.val) true
          (entryAddr c die.val p.val ch.val 7) 4 (nonetsOf (chanStatus x code)) [] c) c = (some r, c1) else c1 = c) →
      exec (.channelComplete die p ch) s = .next (s.on (fun _ => channelEnd die.val p.val ch.val code c1)) ∧
      ((c1.chan die.val p.val ch.val).chen = false → channelEnd die.val p.val ch.val code c1 =
        ((c1.setReg (pgCtu die.val p.val) (32 + ch.val)
          (withField 0 0 33 (fieldOf (chanStatus (c1.chan die.val p.val ch.val) code) 2 33))).setChan die.val p.val ch.val Chan.idle).raise
          (pgCtu die.val p.val) (if code ≤ 1 then ch.val else 16 + ch.val))) ∧
    (x.st = 4 ∨ x.st = 5 → hbmUp c die.val = false →
      exec (.ctuGone die p ch) s = .next (put { x with code := some 0o14, resv := false, wq := [], nochain := true }))

/-- R243 to R247: staging a slice and reading it back by the same descriptor. -/
def Obligations.PortSliceRoundTrip : Prop :=
  ∀ (x : Chan) (i : Nat) (w : Word), x.stage = [] → (x.layout = 0 → i % x.slicesPer < x.sw) →
    ∀ j < 36,
      ((x.octetOf (x.streamBit (i % x.slicesPer) j)).isSome = true →
        bitAt (stagedSlice (stageOut x i w false) i).1 j = bitAt w j) ∧
      ((x.octetOf (x.streamBit (i % x.slicesPer) j)).isSome = true ↔ ¬ (x.pack = 0 ∧ x.streamBit (i % x.slicesPer) j % 9 = 8)) ∧
      ((x.octetOf (x.streamBit (i % x.slicesPer) j)) = none → bitAt w j = true → (stageOut x i w false).drop8 = true)

/-- R50, R53 to R55, R394 and R534. -/
def Obligations.RegisterWritesComplete : Prop :=
  (∀ (who : Who) (p : BitVec 12) (slot : BitVec 9) (v : Word) (s : State) (e : SlotSpec),
    s.chip.takes who p.toNat slot.toNat v = true → slotSpec p.toNat slot.toNat = some e →
    (slot = 8 ∨ slot = 9 ∨ (16 ≤ slot.toNat ∧ (pageBlock p.toNat).1 ∈ [.vote, .aon, .bw, .drove, .bank, .board, .thonos, .gander, .stop,
      .fold, .xbar, .hbmc, .die])) →
    let old := s.chip.reg p.toNat slot.toNat
    let log := decide (16 ≤ slot.toNat) && e.w1c == 0x800000000 && bitAt v 35 && (pageBlock p.toNat).1 != .vote
    ∃ t : State, exec (.registerWrite who p slot v) s = .next t ∧ t.pending = s.pending ∧ { t.chip with regs := s.chip.regs } = s.chip ∧
      (∀ i < 36, bitAt (t.chip.reg p.toNat slot.toNat) i =
        if log ∧ i = 34 ∧ (slot.toNat ≠ 8 ∧ slot.toNat ≠ 9) then false
        else if bitAt e.rw i then bitAt v i
        else if bitAt e.w1s i && bitAt v i then true
        else if bitAt e.w1c i && bitAt v i then false else bitAt old i) ∧
      (∀ q r : Nat, r < 512 → (q, r) ≠ (p.toNat, slot.toNat) → t.chip.reg q r = s.chip.reg q r)) ∧
  (∀ (who : Who) (p : BitVec 12) (ev : Fin 36) (s : State) (e : SlotSpec),
    s.chip.takes who p.toNat 7 (BitVec.ofNat 36 (2 ^ ev.val)) = true → slotSpec p.toNat 7 = some e → bitAt e.wo ev.val = true →
    exec (.evSet who p ev) s = .next (s.on (fun c => c.raise p.toNat ev.val)) ∧
    let c' := s.chip.raise p.toNat ev.val
    (∀ i < 36, bitAt (c'.reg p.toNat 6) i = (i == ev.val || bitAt (s.chip.reg p.toNat 6) i)) ∧
    c'.evls = s.chip.evls ++ (if s.chip.evOut p.toNat || !bitAt (s.chip.reg p.toNat 5) ev.val then [] else [(p.toNat, true)])) ∧
  (∀ (p : BitVec 12) (s : State) (lv : Bool) (src : Nat), s.chip.pwr.off = false → s.chip.flag pgEvh 3 0 = false →
    s.chip.evls.find? (fun e => evlWay e.1 == evlWay p.toNat) = some (p.toNat, lv) → pageSource p.toNat = some src →
    ∃ t : State, exec (.evl ⟨p, 0⟩) s = .next t ∧ t.chip.level src = lv ∧ t.chip.evls = s.chip.evls.erase (p.toNat, lv) ∧
      (∀ o ≠ src, t.chip.level o = s.chip.level o) ∧ t.chip.mem = s.chip.mem ∧ t.chip.cpu = s.chip.cpu) ∧
  (∀ (p : BitVec 12) (s : State), s.chip.pwr.off = false →
    ∃ t : State, exec (.perturbApply p) s = .next t ∧ SMap.get (fun _ => 0) t.chip.pwr.pert p.toNat = s.chip.reg p.toNat 8 ∧
      (∀ q ≠ p.toNat, SMap.get (fun _ => 0) t.chip.pwr.pert q = SMap.get (fun _ => 0) s.chip.pwr.pert q) ∧
      { t.chip with pwr := s.chip.pwr } = s.chip)

/-- R50, R52, R53 and R56. -/
def Obligations.RefusedWriteRecord : Prop :=
  ∀ (who : Who) (p s : Nat) (v : Word) (c : Chip), c.pwr.off = false → slotStatus p s c = 0 → (pageBlock p).1 ≠ .unlisted →
    s < 512 → ¬ (p = pgHub ∧ s = 18) → slotOpen who p s = true → plainSlot p s = false →
    let c' := pageWrite who p s v c
    let stops := lockedSlot c p s || refusedSlot who p s v c
    stops = true ∨ reservedSlot p s v c = true →
      c'.flag p 3 35 = true ∧
      (c.flag p 3 35 = false → c'.fld p 3 33 2 = (if stops then 2 else 1) ∧ c'.fld p 3 24 9 = s) ∧
      (c.flag p 3 35 = true → c' = c) ∧
      (∀ q r : Nat, r < 512 → (q, r) ≠ (p, 3) → c'.reg q r = c.reg q r) ∧
      (∀ i < 24, bitAt (c'.reg p 3) i = bitAt (c.reg p 3) i) ∧ { c' with regs := c.regs } = c

/-- R58: slots 0 to 3 of the THONOS page (58) and of the page of the secure bank (55), for initiators other than Thonos. -/
def Obligations.SecurePagesServeFourSlots : Prop :=
  ∀ (who : Who) (p s : Nat) (v : Word) (c : Chip), who ≠ .thonos → p = pgThonos ∨ p = pgBank 7 → s < 512 →
    (s ≤ 3 → readSlot who p s c = (slotValue p s c, c)) ∧
    (3 < s → readSlot who p s c = (0, c)) ∧
    (c.pwr.off = false → pageGone c p = false → 3 < s →
      let c' := pageWrite who p s v c
      c'.flag p 3 35 = true ∧ (c.flag p 3 35 = false → c'.fld p 3 33 2 = 2) ∧
      (∀ q r : Nat, r < 512 → (q, r) ≠ (p, 3) → c'.reg q r = c.reg q r) ∧ { c' with regs := c.regs } = c) ∧
    (s ≤ 3 → c.takes who p s v = true → pageWrite who p s v c = writeEffect who p s v c)

/-- R7, in the scratch banks and for LDD. -/
def Obligations.NonetsOfAWord : Prop :=
  (∀ (c : Chip) (a : Nat) (i : Nat), i < 4 → (c.bankWord a >>> (9 * i)).setWidth 9 = (c.cell (a + i)).setWidth 9) ∧
  (∀ (c : Chip) (a : Nat) (v : Word) (i : Nat), i < 4 →
    ((c.bankWrite a v allNonets false).cell (a + i)).setWidth 9 = (v >>> (9 * i)).setWidth 9) ∧
  (∀ (k : Fin 4) (s : State) (w : Word), s.chip.ready k.val (.load 0o35) w = true →
    let a := (s.chip.w k.val (wRa w) + sextImm w).toNat
    bankBase k.val ≤ a → a + 8 ≤ bankBase k.val + 4 * bankWords k.val → a % 8 = 0 → bankOn s.chip k.val = true →
    bankClearing s.chip k.val = false → s.chip.badNonets a = [] → s.chip.badNonets (a + 4) = [] → wRd w ≠ 0 →
    ∃ t : State, exec (.scLdd k) s = .next t ∧ t.chip.pair k.val (wRd w) = s.chip.bankWord (a + 4) ++ s.chip.bankWord a)

/-- R490: claiming, holding and releasing the port; JTAG is route 1 and PCI Express route 2. -/
def Obligations.DebugPortOwnership : Prop :=
  ∀ (jtag : Bool) (v : Word) (slot : Nat) (c : Chip), c.pwr.off = false →
    ¬ (ownsPort c true = true ∧ ownsPort c false = true) ∧
    (c.port 1 = 0 → v.toNat % 4 = routeNo jtag → dbgWrite jtag 1 v c = c.setPort 1 (BitVec.ofNat 36 (routeNo jtag))) ∧
    (ownsPort c jtag = true → v.toNat % 4 = 0 → dbgWrite jtag 1 v c = c.setPort 1 0) ∧
    (ownsPort c jtag = false → ¬ (c.port 1 = 0 ∧ v.toNat % 4 = routeNo jtag) → dbgWrite jtag 1 v c = c) ∧
    (ownsPort c jtag = false → slot ≠ 1 → dbgWrite jtag slot v c = c) ∧
    (ownsPort c jtag = false → slot ≠ 0 → slot ≠ 1 → slot ≠ 3 → dbgRead jtag slot c = (0, c)) ∧
    (∀ cause : Nat, ownsPort (deviceReset cause c) true = false ∧ ownsPort (deviceReset cause c) false = false) ∧
    (∀ (code : Nat) (landed : List Bool), ownsPort (flr 3 code landed c) false = false) ∧
    (ownsPort (tapReset c) true = false) ∧
    (tapReset c = { c with pins := { c.pins with ir := 1 }, dbg := (tapReset c).dbg } ∧
      (tapReset c).dbg = (if ownsPort c true then c.setPort 1 0 else c).dbg ∧ authorised (tapReset c) = authorised c ∧
      ∀ k : Fin 4, (tapReset c).halted k.val = c.halted k.val)

/-- R270 to R277, R282, R285 to R289. -/
def Obligations.MemoryCommandsComplete : Prop :=
  ∀ (s : State) (die : Fin 4) (m : Fin 2) (b : Fin 9) (who : Who),
    let c := s.chip
    let p := pgBank b.val
    let h := pgHbmc die.val m.val
    (∀ bank : BitVec 8, exec (.hbmRefresh die m bank) s = .next s) ∧
    (c.pwr.off = false → hbmUp c die.val = true →
      (∀ (req o n : Nat), o + n ≤ dieSize → (req < 9 → queuedBlock c die.val req o n = false) →
        ∃ t : State, exec (.hbmRequest die (.read req o n [])) s = .next t ∧ t.chip.mem.banks = c.mem.banks ∧ t.chip.mem.hbm = c.mem.hbm ∧
          t.chip.mem.ports = c.mem.ports ++ [.hbm die.val ((List.range n).map (fun i =>
            BitVec.ofBool (octetBad (c.hbmCell die.val (o + i))) ++ (c.hbmCell die.val (o + i)).setWidth 8))]) ∧
      (∀ (req o : Nat) (data : List (BitVec 9)), o + data.length ≤ dieSize → (req < 9 → queuedBlock c die.val req o data.length = false) →
        exec (.hbmRequest die (.write req o data)) s = .next (s.on (fun c => c.hbmWrite die.val o req data))) ∧
      (∀ (q ch o : Nat) (data : List (BitVec 9)) (rest : List (Nat × List (BitVec 9))), (c.chan die.val q ch).wq = (o, data) :: rest →
        exec (.hbmRequest die (.queued q ch)) s =
          .next (s.on (fun c => (c.hbmWrite die.val o q data).setChan die.val q ch { c.chan die.val q ch with wq := rest, fill := (c.chan die.val q ch).fill + data.length })))) ∧
    (c.pwr.off = false →
      (∀ owner ring : Option BankAcc, b ≠ 7 ∨ (∃ w v ns, owner ∈ [none, some (.read w), some (.write w v ns)]) ∧ ring = none →
        exec (.bankAccess b owner ring) s = .next (s.on (
          if bankOn c b.val then
            if bankClearing c b.val || bankWiping c b.val then fun c => { c with mem := { c.mem with held := c.mem.held ++ [(b.val, owner, ring)] } }
            else bankCycle b.val owner ring
          else fun c => bankRefuse b.val true owner (bankRefuse b.val false ring c)))) ∧
      (∀ (w : Nat) (own : Bool), bankRefuse b.val own (some (.read w)) c =
        { c with mem := { c.mem with ports := c.mem.ports ++ [.bankGone b.val own] } })) ∧
    (c.pwr.off = false → bankOn c b.val = true → bankClearing c b.val = false → bankWiping c b.val = false → testDue b.val c = true →
      (c.flag p 16 35 = true → (∀ i < 64, c.badNonets (bankBase b.val + 4 * (64 * c.fld p 17 0 14 + i)) = []) →
        exec (.btestRegion b []) s = .next (s.on (fun c =>
          let c := { c with mem := { c.mem with btDone := SMap.set (fun _ => none) c.mem.btDone b.val (some c.tally) } }
          if bankWords b.val ≤ 64 * (c.fld p 17 0 14 + 1) then (c.setFld p 17 0 14 0).raise p 2
          else c.setFld p 17 0 14 (c.fld p 17 0 14 + 1))) ∧
        ∀ word bit : Nat, exec (.btestRegion b [(word, bit)]) s = .next (s.on (fun c =>
          let c := { c with mem := { c.mem with btDone := SMap.set (fun _ => none) c.mem.btDone b.val (some c.tally) } }
          ((c.log p 18 true (withField (withField 0 28 6 bit) 0 20 (64 * c.fld p 17 0 14 + word))).setFlag p 16 35 false).raise p 1)))) ∧
    (c.takes who p 2 1 = true → c.flag p 2 0 = false → bankOn c b.val = true → bankClearing c b.val = false →
      exec (.bankPdown who b) s = .next (s.on (fun c => (c.setFlag p 2 0 true).setFld p 3 3 2 1))) ∧
    (c.takes who p 2 0 = true → c.flag p 2 0 = true → c.fld p 3 3 2 = 2 →
      exec (.bankWake who b) s = .next (s.on (fun c =>
        let c := (((c.setFlag p 2 0 false).bankClear b.val).setFld p 3 3 2 0).setFlag p 3 0 true
        if b = 7 then secureWipe c else c))) ∧
    (c.pwr.off = false → c.flag p 2 0 = true → c.fld p 3 3 2 = 1 → (∀ x ∈ c.mem.held, x.1 ≠ b.val) → exec (.bankOff b) s = .next (s.on (fun c => c.setFld p 3 3 2 2))) ∧
    (c.pwr.off = false → c.flag p 2 0 = false → bankClearing c b.val = true → c.calm = true →
      ((∀ x ∈ c.mem.held, x.1 ≠ b.val) → exec (.bankClearDone b) s = .next (s.on (fun c => c.setFlag p 3 0 false))) ∧
      (∀ owner ring : Option BankAcc, b ≠ 7 → c.mem.held = [(b.val, owner, ring)] → exec (.bankClearDone b) s = .next (s.on (fun c =>
        bankCycle b.val owner ring { c.setFlag p 3 0 false with mem := { c.mem with held := [] } })))) ∧
    (c.pwr.off = false → bankWiping c 7 = true → (∀ x ∈ c.mem.held, x.1 ≠ 7) →
      (c.sec.afterWipe = none →
        exec .secureWipeDone s = .next (s.on (fun c => (c.setFlag (pgBank 7) 3 2 false).raise (pgBank 7) 4))) ∧
      (∀ lc : Bool, c.sec.afterWipe = some lc → ∃ t : State, exec .secureWipeDone s = .next t ∧ t.chip.pwr.off = true ∧
        t.chip.sec.lcs = c.sec.lcs)) ∧
    (∀ (temp : BitVec 8) (hot : Bool), c.pwr.off = false →
      exec (.stackTemperatureReport die m temp hot) s = .next (s.on (fun c =>
        let c' := (c.setFld h 3 4 8 temp.toNat).setFlag h 3 3 hot
        if 95 ≤ temp.toNat then c'.raise h 3 else c')))

/-- Table 9-4 and R282. -/
def Obligations.BankPortsCollide : Prop :=
  ∀ (b : Fin 9) (c : Chip) (w : Nat) (v x : Word), w < bankWords b.val → c.badNonets (bankBase b.val + 4 * w) = [] →
    let a := bankBase b.val + 4 * w
    let go (o r : BankAcc) : Chip := bankCycle b.val (some o) (some r) c
    (go (.read w) (.write w v allNonets)).mem.ports = c.mem.ports ++ [.bank b.val true (c.bankWord a) false] ∧
    (go (.read w) (.write w v allNonets)).bankWord a = v ∧
    (go (.write w v allNonets) (.read w)).mem.ports = c.mem.ports ++ [.bank b.val false (c.bankWord a) false] ∧
    (go (.write w v allNonets) (.write w x allNonets)).bankWord a = v ∧
    (go (.aadd w v) (.aadd w x)).bankWord a = c.bankWord a + x + v ∧
    (∀ k : Fin 4, (c.core k.val).resv = some a → (c.core k.val).failStc = false →
      (go (.read w) (.stc w k.val v)).bankWord a = v ∧ (go (.write w x allNonets) (.stc w k.val v)).bankWord a = x ∧
      (go (.write w x allNonets) (.stc w k.val v)).mem.ports = c.mem.ports ++ [.bank b.val false 1 false] ∧
      ((go (.write w x allNonets) (.stc w k.val v)).core k.val).resv = none) ∧
    (∀ o r : BankAcc, o ∈ [.read w, .write w v allNonets, .aadd w v, .aswap w v] → r ∈ [.read w, .write w x allNonets, .aadd w x, .aswap w x] →
      (go o r).mem.hbm = c.mem.hbm ∧ ∀ i, (i < a ∨ a + 4 ≤ i) → (go o r).cell i = c.cell i)

/-- R271 to R273, R276 and R277. -/
def Obligations.HbmOctetsRoundTrip : Prop :=
  ∀ (die : Fin 4) (o src req : Nat) (data : List (BitVec 9)) (c : Chip), o + data.length ≤ dieSize →
    let c' := c.hbmWrite die.val o req data
    (c'.hbmRead die.val o data.length src req []).1 = data ∧
    (∀ (d : Fin 4) (i : Nat), i < dieSize → (d ≠ die ∨ i < o ∨ o + data.length ≤ i) → c'.hbmCell d.val i = c.hbmCell d.val i) ∧
    c'.mem.banks = c.mem.banks ∧
    (∀ (k : Pkt) (sev : List Sev), hbmUp c die.val = false → k.addr.toNat / dieSize = die.val →
      k.addr.toNat % dieSize + k.len.toNat ≤ dieSize →
      (hbmServe opRd k sev c).1 = some (Srv.of stGone) ∧ (hbmServe opWr k sev c).1 = some (Srv.of stGone) ∧
      (hbmServe opRd k sev c).2.mem = c.mem ∧ (hbmServe opWr k sev c).2.mem = c.mem ∧ (hbmServe opWrp k sev c).2.mem = c.mem)

/-- R191, R281 to R288, R295 to R297, R299, R300, R304, R306 to R308, R315, R316 and R344. -/
def Obligations.RingRequestsComplete : Prop :=
  (∀ (q : Pkt) (sev : List Sev) (s : State) (p : Instr × Nat × List Sev),
    p ∈ [(Instr.ringRd q sev, opRd, sev), (.ringWr q sev, opWr, sev), (.ringWrp q sev, opWrp, sev), (.ringAadd q, opAadd, []),
      (.ringAswap q, opAswap, []), (.ringLdr q, opLdr, []), (.ringStc q, opStc, []), (.orderingProbe q, opRd, []), (.strm q, opStrm, [])] →
    let c := s.chip
    c.pwr.off = false → (p.1 = .orderingProbe q → q.len = 0) →
    (p.1 = .strm q → granted c q = true ∧ q.mask = [] ∧ q.data.length ≤ if q.nonet then 56 else 64) →
    (p.2.1 = opWrp → granted c q = false ∨ q.mask ≠ [] ∨ q.len = 0) →
    (stopHolds p.2.1 q c = true → exec p.1 s = .next s) ∧
    (q.hdr = 0 → stopHolds p.2.1 q c = false →
      let f : Fly := { opc := p.2.1, k := { q with lap := 0, hdr := 0 }, here := false, cop := none }
      let cc := c.count (pgDrove q.src.1) (160 + 0 + 2 * q.init) q.data.length
      let c0 := if isPosted p.2.1 then cc
        else { cc with ring := { cc.ring with owed := cc.ring.owed ++ [⟨q.src, q.tag, p.2.1, q.init, false⟩] } }
      (∀ g ∈ c.ring.flight, sameWay f g = false) → circulates c0 q.dst = false →
      ((serve p.2.1 f.k p.2.2 c0).1 = none → exec p.1 s = .next (s.on (fun _ => c0.fly { f with here := true }))) ∧
      (∀ (r : Srv) (c1 : Chip), serve p.2.1 f.k p.2.2 c0 = (some r, c1) →
        (isPosted p.2.1 = true → exec p.1 s = .next (s.on (fun _ => c1))) ∧
        (isPosted p.2.1 = false → ∃ g : Fly, exec p.1 s = .next (s.on (fun _ => c1.fly g)) ∧
          g.opc = (if p.2.1 = opWr then opAck else opData) ∧ g.k.src = q.dst ∧ g.k.dst = q.src ∧ g.k.tag = q.tag ∧ g.k.init = q.init ∧
          g.k.status = r.status ∧ g.k.data = r.data ∧ g.k.mask = r.mask ∧ g.here = false)))) ∧
  (∀ (q : Pkt) (sev : List Sev) (s : State), s.chip.pwr.off = false → granted s.chip q = true → q.mask = [] → q.len ≠ 0 →
    stopHolds opWrp q s.chip = false → exec (.ringWrp q sev) s = .next (s.on (fun c =>
      (piecesOf q.len.toNat (flitElems q.nonet)).foldl (fun c x => (inject opStrm { q with
        len := BitVec.ofNat 9 x.2, addr := BitVec.ofNat 38 (q.addr.toNat + x.1), data := (q.data.drop x.1).take x.2 } none false sev c).2) c))) ∧
  (∀ (q : Pkt) (c : Chip) (b : Nat), q.nonet = true → bankAt q.addr.toNat = some b → b ≠ 7 →
    inBank b (q.addr.toNat - q.addr.toNat % 4) ((q.addr.toNat % 4 + q.len.toNat + 3) / 4) = true →
    (bankOn c b = false → serve opRd q [] c = (some ⟨stGone, [], []⟩, c) ∧ serve opWr q [] c = (some ⟨stGone, [], []⟩, c)) ∧
    (bankOn c b = true → bankClearing c b = true → serve opRd q [] c = (none, c) ∧ serve opWr q [] c = (none, c)) ∧
    (bankOn c b = true → bankClearing c b = false →
      ((∀ i < q.len.toNat, nonetBad (c.cell (q.addr.toNat + i)) = false) → serve opRd q [] c =
        (some ⟨stOk, (List.range q.len.toNat).map (fun i => (c.cell (q.addr.toNat + i)).setWidth 9), []⟩, c)) ∧
      serve opWr q [] c = (some ⟨stOk, [], []⟩, bankPut q.addr.toNat (q.data.take q.len.toNat) q.mask c))) ∧
  (∀ (r : Fin 3) (st : Fin 16) (lat : Nat) (s : State) (f : Fly) (p : Instr × Nat),
    p ∈ [(Instr.ringData r ⟨st, 0⟩ lat, opData), (.ringAck r ⟨st, 0⟩ lat, opAck)] → s.chip.pwr.off = false → s.chip.calm = true →
    s.chip.ring.flight.find? (fun y => y.opc == p.2 && y.k.dst == (r.val, st.val) && firstOfWay s.chip y) = some f →
    (∀ e : Owed, owedAs (r.val, st.val) f.k.tag s.chip = some e →
      ∃ t : State, exec p.1 s = .next t ∧ t.chip.ring.flight = s.chip.ring.flight.erase f ∧ t.chip.mem = s.chip.mem ∧ t.chip.cpu = s.chip.cpu ∧
        t.chip.ring.quar = s.chip.ring.quar ∧ owedAs (r.val, st.val) f.k.tag t.chip = none ∧
        t.chip.ring.got = s.chip.ring.got ++ (if e.block then [] else [(p.2, f.k)]) ∧
        t.chip.ring.answers = s.chip.ring.answers ++ (if e.block then [(p.2, f.k)] else [])) ∧
    (owedAs (r.val, st.val) f.k.tag s.chip = none → circulates s.chip (r.val, st.val) = false →
      ∃ t : State, exec p.1 s = .next t ∧ t.chip.ring = { s.chip.ring with
          flight := s.chip.ring.flight.erase f, quar := s.chip.ring.quar.erase ((r.val, st.val), f.k.tag) } ∧
        t.chip.mem = s.chip.mem ∧ t.chip.cpu = s.chip.cpu)) ∧
  (∀ (k : Fin 4) (s : State) (q : CopReq) (tg : BitVec 6), s.chip.pwr.off = false → s.chip.linked = false →
    (s.chip.core k.val).cop = some q → q.sent = true → q.taken = false → q.tile < 8 →
    tileOff s.chip q.tile = false → s.chip.tileState q.tile = 3 → (s.chip.tile q.tile).cur = none → (s.chip.tile q.tile).waiting = [] →
    let x := copPacket k.val q 0 s.chip
    let y := { q with taken := true, tag := tg }
    freeTag x s.chip = some tg → stopHolds opCop { x with tag := tg } s.chip = false → circulates s.chip x.dst = false →
    (∀ g ∈ s.chip.ring.flight, sameWay ⟨opCop, { x with tag := tg }, false, some y⟩ g = false) →
    ∃ t : State, exec (.ringCop ⟨k, 0⟩) s = .next t ∧ (t.chip.core k.val).cop = some y ∧
      (t.chip.tile q.tile).cur = some (k.val, { y with vc := x.vc }) ∧ (∀ j : Nat, j ≠ q.tile → t.chip.tile j = s.chip.tile j) ∧
      t.chip.mem = s.chip.mem ∧ t.chip.cpu.w = s.chip.cpu.w ∧ t.chip.ring.flight = s.chip.ring.flight) ∧
  (∀ (k : Fin 4) (lat : Nat) (s : State) (q : CopReq) (f : Fly) (e : Owed), s.chip.pwr.off = false → s.chip.linked = false →
    s.chip.dbg.cmd = none → s.chip.halted k.val = false → (s.chip.core k.val).cop = some q → q.taken = true → q.tag = f.k.tag →
    f.k.status = 0 →
    s.chip.ring.flight.find? (fun y => y.opc == opCopr && y.k.dst == initStop k.val && firstOfWay s.chip y) = some f →
    owedAs (initStop k.val) f.k.tag s.chip = some e →
    ∃ t : State, exec (.ringCopr ⟨k, 0⟩ lat) s = .next t ∧ (t.chip.core k.val).cop = none ∧ t.chip.ring.flight = s.chip.ring.flight.erase f ∧
      (∀ r : BitVec 5, t.chip.w k.val r = if r = q.rd ∧ r ≠ 0 then wordOf f.k.data else s.chip.w k.val r) ∧
      t.chip.pc k.val = (advance k.val 4 s.chip).pc k.val ∧ t.chip.mem = s.chip.mem) ∧
  (∀ (opc : Nat) (k : Pkt) (m : Nat), k.data.length ≤ packetMax k.nonet (!k.mask.isEmpty) → m < k.data.length →
    flitCount opc k ≤ 4 ∧ flitOf opc k m < flitCount opc k ∧
    ∀ i < elemBits k.nonet, (flitData opc k (flitOf opc k m)).getLsbD (elemBits k.nonet * (m % flitElems k.nonet) + i) =
      (k.data.getD m 0).getLsbD i)

/-- R294, R298, R300, R303, R310 to R312 and R315. -/
def Obligations.RingStopsComplete : Prop :=
  ∀ (s : State) (r : Fin 3) (st : Fin 16) (who : Who),
    let c := s.chip
    let here := (r.val, st.val)
    let p := pgStop r.val st.val
    (∀ (opc : BitVec 4) (q : Pkt), c.pwr.off = false → q.hdr = 0 → opc ≠ 0o14 → opc ≠ 0o07 → q.src.1 ≠ q.dst.1 →
      (opc.toNat < opData → stopHolds opc.toNat q c = false) →
      ∃ t : State, exec (.xrCrossing opc q) s = .next t ∧
        t.chip.ring = { c.ring with
          flight := c.ring.flight ++ [⟨opc.toNat, { q with lap := 0, hdr := 0 }, false, none⟩]
          owed := c.ring.owed ++ (if opc.toNat < opData ∧ isPosted opc.toNat = false then [⟨q.src, q.tag, opc.toNat, q.init, false⟩] else []) } ∧
        t.chip.mem = c.mem ∧ t.chip.cpu = c.cpu) ∧
    (c.takes who p 2 1 = true → stopMode c here = 0 →
      exec (.stopReconfSet who r st) s = .next (s.on (fun c => (c.setFlag p 2 0 true).setFld p 3 0 3 1))) ∧
    (c.takes who p 2 0 = true → stopMode c here = 1 ∨ stopMode c here = 2 →
      exec (.stopReconfClear who r st) s = .next (s.on (fun c => (c.setFlag p 2 0 false).setFld p 3 0 3 0))) ∧
    (c.pwr.off = false → stopMode c here = 1 → (∀ e ∈ c.ring.owed, e.stop ≠ here) → (∀ f ∈ c.ring.flight, f.k.dst = here → f.here = false) →
      exec (.stopEnterPass r st) s = .next (s.on (fun c => (c.setFld p 3 0 3 2).raise p 3))) ∧
    (∀ f : Fly, c.pwr.off = false → c.calm = true → nextPass here c = some f → circulates c here = true →
      (f.k.lap.toNat < 4 → exec (.passThrough r ⟨st, 0⟩) s = .next (s.on (fun c =>
        { c with ring := { c.ring with flight := c.ring.flight.replace f { f with k := { f.k with lap := f.k.lap + 1 } } } }))) ∧
      (4 ≤ f.k.lap.toNat → f.opc < opData → isPosted f.opc = false → ∃ (t : State) (g : Fly),
        exec (.passThrough r ⟨st, 0⟩) s = .next t ∧ t.chip = { c with ring := { c.ring with flight := c.ring.flight.erase f ++ [g] } } ∧
        g.k.status = stGone ∧ g.k.tag = f.k.tag ∧ g.k.dst = f.k.src ∧ g.opc = (if f.opc = opWr then opAck else if f.opc = opCop then opCopr else opData))) ∧
    (∀ (init : Nat) (tag : BitVec 6) (e : Owed), c.pwr.off = false → c.calm = true → c.fld (pgDrove r.val) 144 0 24 ≠ 0 →
      c.ring.owed.find? (fun x => x.stop == here && x.tag == tag && x.init == init) = some e → e.block = false →
      ∃ (t : State) (k : Pkt), exec (.requestTimeout r st init tag) s = .next t ∧ t.chip.ring.quar = c.ring.quar ++ [(here, tag)] ∧
        t.chip.ring.got = c.ring.got ++ [(if e.opc = opWr then opAck else if e.opc = opCop then opCopr else opData, k)] ∧
        k.status = stLost ∧ k.tag = tag ∧ k.dst = here ∧ k.data = [] ∧ owedAs here tag t.chip = none ∧
        bitAt (t.chip.reg p 6) 2 = true ∧ t.chip.mem = c.mem) ∧
    (c.pwr.off = false → ∃ t : State, exec (.gnttabApply r) s = .next t ∧
      (∀ i < 128, SMap.get (fun _ => 0) t.chip.ring.grants (r.val * 128 + i) =
        (if c.flag (pgDrove r.val) 2 0 && bitAt (c.reg (pgDrove r.val) (16 + i)) 35 then c.reg (pgDrove r.val) (16 + i) else 0)) ∧
      (∀ j : Nat, j / 128 ≠ r.val → SMap.get (fun _ => 0) t.chip.ring.grants j = SMap.get (fun _ => 0) c.ring.grants j))

/-- R322 to R330, R334 and R345. -/
def Obligations.CellsComplete : Prop :=
  (∀ (t : Fin 8) (i : Fin 144) (s : State) (p : Instr × Nat × Nat) (ref : Bool) (period : Nat),
    p ∈ [(Instr.cellPass t i, 0o0, 0), (.cellAdd t i, 0o1, 0), (.cellAddc t i, 0o2, 0), (.cellSub t i, 0o3, 0),
      (.cellSubc t i, 0o4, 0), (.cellAnd t i, 0o5, 0), (.cellOr t i, 0o6, 0), (.cellXor t i, 0o7, 0),
      (.cellAndn t i, 0o10, 0), (.cellShl t i, 0o11, 0), (.cellShr t i, 0o12, 0), (.cellSar t i, 0o13, 0),
      (.cellRol t i, 0o14, 0), (.cellLit t i, 0o15, 0), (.cellLith t i, 0o16, 0), (.cellEq t i, 0o17, 0),
      (.cellLtu t i, 0o20, 0), (.cellLts t i, 0o21, 0), (.cellMull t i, 0o22, 0), (.cellMulh t i, 0o23, 0),
      (.cellSel t i, 0o24, 0), (.cellMxc t i, 0o25, 0), (.cellExt t i, 0o26, 0), (.cellDep t i, 0o27, 0),
      (.cellPopc t i, 0o30, 0), (.putCpok t i, 0o31, 0), (.putCperr t i, 0o31, 1), (.putSout t i, 0o31, 2),
      (.putSpop t i, 0o31, 3), (.putSoutf t i, 0o31, 4)] →
    let c := s.chip
    let x := c.tile t.val
    let y := x.cell i.val
    c.pwr.off = false → settle 16 c = c → (ref = true → settleRef t.val 16 c = c) → c.tileState t.val = 3 →
    treeClock x.clk (i.val / 36) = some (ref, period) → (x.due ref).contains i.val = true → cellTag y.ins = p.2 → tileReady c t.val = true →
    tileFrozen c t.val ref = false → c.flag (pgTile t.val) 3 10 = false →
    exec p.1 s = .next (s.on (fun c =>
      let c1 := cellRun t.val i.val ref c
      soutSend t.val (if ((c1.tile t.val).due ref).isEmpty then settle 16 (endCycle t.val ref c1) else c1))) ∧
    (let x' := (cellRun t.val i.val ref c).tile t.val
     let w := y.ins
     let ports := if (x.dom ref).ports.isEmpty then portsNow c t.val ref else (x.dom ref).ports
     let pick (f : Nat) : Word :=
       if f = 0 then xbar x ref ports y.xs else if f = 1 then xbar x ref ports y.ys else if f = 2 then y.u else y.v
     let a := pick (fieldOf w 25 2)
     let res := cellRes (fieldOf w 30 6) (fieldOf w 0 18) a (pick (fieldOf w 23 2)) (xbar x ref ports y.ys) (xbar x ref ports y.zs) y.cf
       (fun n => xbar x ref ports (y.xs + n))
     let holds := cellCond (fieldOf w 20 3) y.cf (xbar x ref ports y.zs)
     let next := if y.ipc + 1 < y.len then y.ipc + 1 else 0
     { x'.cell i.val with pend := none } = y ∧
     (holds = true → (x'.cell i.val).done = { y with
        o := if bitAt w 29 then res.1 else y.o, u := if bitAt w 28 then res.1 else y.u, v := if bitAt w 27 then res.1 else y.v
        cf := if bitAt w 18 then res.2 else y.cf, ipc := next }) ∧
     (holds = false → (x'.cell i.val).done = { y with ipc := if bitAt w 19 then y.ipc else next }) ∧
     ((x'.cell i.val).pend.bind (fun n => n.act)) = (if holds && p.2.1 == 0o31 then some (p.2.2, a) else none) ∧
     (∀ j ≠ i.val, x'.cell j = x.cell j) ∧ (∀ q ≠ t.val, (cellRun t.val i.val ref c).tile q = c.tile q) ∧
     (cellRun t.val i.val ref c).mem = c.mem)) ∧
  (∀ (t : Fin 8) (ref : Bool) (c : Chip) (j : Nat), j < 144 → SMap.wf (fun _ => Cell.idle) (c.tile t.val).cells = true →
    let x := c.tile t.val
    ((endCycle t.val ref c).tile t.val).cell j =
      if ((treeAdvance x.clk x.pos ref 3).getD (j / 36) (0, false)).2 then (x.cell j).done else x.cell j)

/-- Table 11-3 and R330 in bit vectors. -/
def Obligations.CellTable : Prop :=
  ∀ (imm : Nat) (a b y z : Word) (cf : Bool) (win : Nat → Word), imm < 2 ^ 18 →
    let go (op : Nat) : Word × Bool := cellRes op imm a b y z cf win
    let nz (v : Word) : Word × Bool := (v, v != 0)
    let n := if imm.testBit 17 then b.toNat else imm % 64
    go 0o00 = (a, a == 0) ∧ go 0o01 = (a + b, decide (2 ^ 36 ≤ a.toNat + b.toNat)) ∧
    go 0o02 = (a + b + BitVec.ofNat 36 cf.toNat, decide (2 ^ 36 ≤ a.toNat + b.toNat + cf.toNat)) ∧
    go 0o03 = (a - b, decide (b.toNat ≤ a.toNat)) ∧
    go 0o04 = (a - b - BitVec.ofNat 36 (!cf).toNat, decide (b.toNat + (!cf).toNat ≤ a.toNat)) ∧
    go 0o05 = nz (a &&& b) ∧ go 0o06 = nz (a ||| b) ∧ go 0o07 = nz (a ^^^ b) ∧ go 0o10 = nz (a &&& ~~~b) ∧
    go 0o11 = nz (a <<< n) ∧ go 0o12 = nz (a >>> n) ∧ go 0o13 = nz (a.sshiftRight n) ∧ go 0o14 = nz (a.rotateLeft n) ∧
    go 0o15 = (BitVec.ofNat 36 imm, false) ∧ go 0o16 = (BitVec.ofNat 18 imm ++ a.setWidth 18, false) ∧
    go 0o17 = (BitVec.ofNat 36 (a == b).toNat, a == b) ∧ go 0o20 = (BitVec.ofNat 36 (a.ult b).toNat, a.ult b) ∧
    go 0o21 = (BitVec.ofNat 36 (a.slt b).toNat, a.slt b) ∧
    go 0o22 = (a * b, decide (2 ^ 36 ≤ a.toNat * b.toNat)) ∧ go 0o23 = nz (BitVec.ofNat 36 (a.toNat * b.toNat / 2 ^ 36)) ∧
    go 0o24 = nz (if z.getLsbD (imm % 64) then b else a) ∧
    go 0o25 = (if (z >>> (imm % 64 + 2)).toNat % 4 = imm / 64 then win ((z >>> (imm % 64)).toNat % 4) else y, false) ∧
    (imm / 64 ≤ 36 → go 0o26 = nz (((a >>> (imm % 64)).setWidth (imm / 64)).setWidth 36) ∧
      ∀ j < 36, (go 0o27).1.getLsbD j =
        if imm % 64 ≤ j ∧ j < imm % 64 + imm / 64 then b.getLsbD (j - imm % 64) else a.getLsbD j) ∧
    (go 0o27).2 = ((go 0o27).1 != 0) ∧
    go 0o30 = nz (BitVec.ofNat 36 ((List.range 36).filter (fun j => a.getLsbD j)).length)

/-- R335, R338 to R344, R348 and R424. -/
def Obligations.TilesComplete : Prop :=
  ∀ (s : State) (t : Fin 8) (who : Who),
    let c := s.chip
    let p := pgTile t.val
    let x := c.tile t.val
    let others (c' : Chip) : Prop := ∀ q ≠ t.val, c'.tile q = c.tile q
    (c.takes who p 2 1 = true → ∃ u : State, exec (.tileLoad who t) s = .next u ∧ u.chip.tileState t.val = 1 ∧ u.chip.fld p 3 2 4 = 0 ∧
      u.chip.tile t.val = { Tile.unconf with base := (c.reg p 16).toNat } ∧ others u.chip ∧ u.chip.mem = c.mem) ∧
    (c.pwr.off = false → c.tileState t.val = 1 → bankOn c 5 = true → bankClearing c 5 = false → x.base % 4 = 0 → inBank 5 x.base 2368 = true →
      ∀ (r : Option Nat) (ws : List Word) (c1 : Chip), readImage t.val x.base c = (r, ws, c1) →
        exec (.tileLoadDone t) s = .next (s.on (fun _ => match r with
          | none => ((c1.setTile t.val (tileOf ws x.base)).setFld p 3 0 2 2).raise p 1
          | some code => (((c1.setTile t.val Tile.unconf).setFld p 3 0 2 0).setFld p 3 2 4 code).raise p 2))) ∧
    (c.takes who p 2 2 = true → ∃ u : State, exec (.tileUnload who t) s = .next u ∧ u.chip.tileState t.val = 0 ∧
      u.chip.tile t.val = Tile.unconf ∧ (c.tileState t.val = 1 → u.chip.fld p 3 2 4 = 8) ∧ others u.chip ∧ u.chip.mem = c.mem) ∧
    (∀ mask : BitVec 8, c.takes who p 17 (mask.setWidth 36) = true →
      ∃ u : State, exec (.tileGo who t mask) s = .next u ∧ u.chip.fab.gos = c.fab.gos + 1 ∧ u.chip.mem = c.mem ∧
        ∀ q < 8, (mask.getLsbD q = true → u.chip.tileState q = 3 ∧ u.chip.tile q =
            { c.tile q with clk := (c.tile q).clkImg, tck := (u.chip.tile q).tck, ref25 := (u.chip.tile q).ref25, goId := c.fab.gos + 1 } ∧
            (u.chip.tile q).tck.n = 0 ∧ (u.chip.tile q).tck.ports = [] ∧ (u.chip.tile q).ref25.n = 0 ∧ (u.chip.tile q).ref25.ports = []) ∧
          (mask.getLsbD q = false → u.chip.tileState q = c.tileState q ∧ u.chip.tile q = c.tile q)) ∧
    (∀ (r : Nat × CopReq) (rest : List (Nat × CopReq)), c.pwr.off = false → x.cur = none → x.waiting = r :: rest →
      exec (.copCurrent t) s = .next (s.on (fun c => c.setTile t.val { x with cur := some r, waiting := rest }))) ∧
    (c.pwr.off = false → soutReady c t.val = none → x.sout.length < 256 →
      exec (.tileUnfreeze t) s = .next (s.on (fun c => c.setFlag p 3 10 false))) ∧
    (∀ r : Fin 4, c.pwr.off = false → c.tileState t.val = 3 → (treeStarts x.clk x.pos r.val = true ∧ ∀ e ∈ x.cells, e.1 / 36 = r.val → e.2.pend = none) ∨
        treeClock x.clk r.val = none →
      exec (.treeClockChange t r) s = .next (s.on (fun c => c.setTile t.val
        { x with clk := withField x.clk (9 * r.val) 9 (c.fld p 19 (9 * r.val) 9) }))) ∧
    (c.takes who pgHub 24 (withField (c.reg pgHub 24) (8 + t.val) 1 1) = true → tileOff c t.val = false →
      ∃ u : State, exec (.tileDomainOff who t) s = .next u ∧ u.chip.reg pgHub 24 = withField (c.reg pgHub 24) (8 + t.val) 1 1 ∧
        u.chip.tile t.val = Tile.unconf ∧ u.chip.tileState t.val = 0 ∧ others u.chip ∧ u.chip.mem = c.mem ∧ u.chip.col = c.col) ∧
    (c.takes who pgHub 24 (withField (c.reg pgHub 24) (8 + t.val) 1 0) = true → tileOff c t.val = true →
      ∃ u : State, exec (.tileDomainOn who t) s = .next u ∧ u.chip.reg pgHub 24 = withField (c.reg pgHub 24) (8 + t.val) 1 0 ∧
        u.chip.tile t.val = Tile.unconf ∧ u.chip.tileState t.val = 0 ∧ others u.chip ∧ u.chip.mem = c.mem ∧ u.chip.col = c.col)

/-- R357, R364, R365, R367 to R371 and R375. -/
def Obligations.CollieInstructionsComplete : Prop :=
  ∀ (e : Fin 8) (h : Fin 16) (s : State) (v : Nat),
    let c := s.chip
    let x := c.cch e.val h.val
    let p := pgCollie e.val
    let gd := x.gr (cf v 7 2)
    let gs := x.gr (cf v 5 2)
    let ready (t : CTag) : Prop := c.collieReady e.val h.val t v = true ∧ chanTurn c e.val h.val = true
    let put (y : CChan) : State := s.on (fun c => (c.served e.val h.val).setCch e.val h.val y)
    let ended (i : Instr) (code : Nat) : Prop := ∃ u : State, exec i s = .next u ∧ (u.chip.cch e.val h.val).st = 0 ∧
      u.chip.fld p (48 + h.val) 28 5 = code ∧ bitAt (u.chip.reg p 6) (if code ≤ 1 then h.val else 16 + h.val) = true
    (∀ q ∈ [(Instr.collieMov e h, CTag.mov, gs), (.collieAdd e h, .add, gd + gs), (.collieSub e h, .sub, gd - gs),
        (.collieAnd e h, .and, gd &&& gs), (.collieOr e h, .or, gd ||| gs), (.collieXor e h, .xor, gd ^^^ gs), (.collieNot e h, .not, ~~~gs),
        (.collieTime e h, .time, c.tally.setWidth 36), (.collieCmpu e h, .cmpu, BitVec.ofNat 36 (gd.ult gs).toNat)],
      ready q.2.1 → exec q.1 s = .next (put ((cNext x).setG (cf v 7 2) q.2.2))) ∧
    (∀ q ∈ [(Instr.collieLdi e h, CTag.ldi, (BitVec.ofNat 12 v).setWidth 36),
        (.collieAddi e h, .addi, x.gr (cf v 12 2) + (BitVec.ofNat 12 v).signExtend 36)],
      ready q.2.1 → exec q.1 s = .next (put ((cNext x).setG (cf v 12 2) q.2.2))) ∧
    (∀ q ∈ [(Instr.collieStampw e h, CTag.stampw, x.stampW), (.collieStampa e h, .stampa, x.stampA)], ready q.2.1 →
      exec q.1 s = .next (put (((cNext x).setG (cf v 7 2) (q.2.2.setWidth 36)).setG (cf v 7 2 + 1) ((q.2.2 >>> 36).setWidth 36)))) ∧
    (ready .take → exec (.collieTake e h) s = .next (put { (cNext x).setG (cf v 7 2) (takeBits x) with des := 0, desn := 0 })) ∧
    (ready .flusho → exec (.collieFlusho e h) s = .next (put { cNext x with ser := 0, sern := 0 })) ∧
    (ready .sig → exec (.collieSig e h) s =
      .next (s.on (fun c => (((c.served e.val h.val).setCch e.val h.val (cNext x)).setFlag p (48 + h.val) 14 true).raise p 33))) ∧
    (ready .setf → exec (.collieSetf e h) s = .next (s.on (fun c => ((c.served e.val h.val).setCch e.val h.val (cNext x)).setFlag p 22 (cf v 0 4)
      (if cf v 12 2 = 0 then false else if cf v 12 2 = 1 then true else !c.flag p 22 (cf v 0 4))))) ∧
    (ready .waitf → (c.flag p 22 (cf v 0 4) = (cf v 13 1 == 1) → exec (.collieWaitf e h) s = .next (s.on (fun c =>
        let c' := (c.served e.val h.val).setCch e.val h.val (cNext x)
        if cf v 12 1 = 1 then c'.setFlag p 22 (cf v 0 4) false else c'))) ∧
      (c.flag p 22 (cf v 0 4) ≠ (cf v 13 1 == 1) → exec (.collieWaitf e h) s =
        .next (put { cNext x with wait := some (.flag (cf v 0 4) (cf v 13 1 == 1) (cf v 12 1 == 1)) }))) ∧
    (ready .waite → (x.events.getLsbD (cf v 0 4) = true → exec (.collieWaite e h) s =
        .next (put { cNext x with events := if cf v 13 1 = 1 then x.events &&& ~~~(1#16 <<< cf v 0 4) else x.events })) ∧
      (x.events.getLsbD (cf v 0 4) = false → exec (.collieWaite e h) s =
        .next (put { cNext x with wait := some (.event (cf v 0 4) (cf v 13 1 == 1)) }))) ∧
    (ready .waitp → exec (.collieWaitp e h) s = .next (put { cNext x with wait := some (.pin (cf v 12 2) (cf v 8 4) none) })) ∧
    (ready .at → tallyReached c (x.gr (cf v 12 2)) = false →
      exec (.collieAt e h) s = .next (put { cNext x with timed := some (x.gr (cf v 12 2)) })) ∧
    (ready .at → tallyReached c (x.gr (cf v 12 2)) = true → ∃ u : State, exec (.collieAt e h) s = .next u ∧
      u.chip.cch e.val h.val = { cNext x with timed := some (x.gr (cf v 12 2)) } ∧ u.chip.flag p (48 + h.val) 13 = true ∧
      bitAt (u.chip.reg p 6) 34 = true) ∧
    (ready .pin → (∃ i < 9, (cf v 0 9).testBit i = true ∧ pinOwner c e.val i ≠ h.val) → ended (.colliePin e h) 7) ∧
    (∀ t : Word, ready .pin → (∀ i < 9, (cf v 0 9).testBit i = true → pinOwner c e.val i = h.val) → x.timed = some t →
      exec (.colliePin e h) s = .next (put { cNext x with timed := none, wait := some (.atPin t (cf v 12 2) (cf v 0 9)) })) ∧
    (ready .pin → (∀ i < 9, (cf v 0 9).testBit i = true → pinOwner c e.val i = h.val) → x.timed = none →
      ∃ u : State, exec (.colliePin e h) s = .next u ∧ u.chip.cch e.val h.val = cNext x ∧ ∀ i < 9, u.chip.cpin e.val i =
        if (cf v 0 9).testBit i = false then c.cpin e.val i
        else if cf v 12 2 = 0 then (true, false) else if cf v 12 2 = 1 then (true, true) else if cf v 12 2 = 2 then (false, false)
        else ((c.cpin e.val i).1, !(c.cpin e.val i).2)) ∧
    (∀ q ∈ [(Instr.collieSho e h, CTag.sho, true, false), (.collieShi e h, .shi, false, true), (.collieShb e h, .shb, true, true)],
      ready q.2.1 → (cf v 0 14 = 0 → exec q.1 s = .next (put { cNext x with timed := none })) ∧
      (cf v 0 14 ≠ 0 → x.cdiv = 0 → ended q.1 0o12) ∧ (cf v 0 14 ≠ 0 → x.cdiv ≠ 0 →
      (x.run = none → exec q.1 s = .next (put { cNext x with timed := none, run := some ⟨q.2.2.1, q.2.2.2, cf v 0 14, x.timed⟩ })) ∧
      (x.run ≠ none → x.queued = none →
        exec q.1 s = .next (put { cNext x with timed := none, queued := some ⟨q.2.2.1, q.2.2.2, cf v 0 14, x.timed⟩ })))) ∧
    (ready .jmp → (cCond x (cf v 11 3) = false → exec (.collieJmp e h) s = .next (put (cNext x))) ∧
      (cCond x (cf v 11 3) = true → x.inWindow (cf v 0 11) = false → ended (.collieJmp e h) 0o10) ∧
      (cCond x (cf v 11 3) = true → x.inWindow (cf v 0 11) = true → exec (.collieJmp e h) s = .next (put { x with
        pc := cf v 0 11, loop := x.loop.filter (fun l => decide (l.1 ≤ cf v 0 11) && decide (cf v 0 11 ≤ l.2.1)) }))) ∧
    (∀ q ∈ [(Instr.collieLoop e h, CTag.loop, cf v 0 8), (.collieLoopg e h, .loopg, (x.gr (cf v 6 2)).toNat)], ready q.2.1 →
      (x.loop ≠ none → ended q.1 7) ∧ (x.loop = none → cf v 8 6 ≠ 0 → x.inWindow (x.pc + cf v 8 6) = false → ended q.1 0o10) ∧
      (x.loop = none → x.inWindow (x.pc + cf v 8 6) = true → q.2.2 = 0 → exec q.1 s = .next (put { x with pc := x.pc + 1 + cf v 8 6 })) ∧
      (x.loop = none → cf v 8 6 ≠ 0 → x.inWindow (x.pc + cf v 8 6) = true → q.2.2 ≠ 0 →
        exec q.1 s = .next (put { x with pc := x.pc + 1, loop := some (x.pc + 1, x.pc + cf v 8 6, q.2.2) })) ∧
      (x.loop = none → cf v 8 6 = 0 → exec q.1 s = .next (put { x with pc := x.pc + 1 }))) ∧
    (∀ (w : Word) (rest : List Word), ready .pull → x.outq = w :: rest → ∃ u : State, exec (.colliePull e h) s = .next u ∧
      u.chip.cch e.val h.val = { (cNext x).setG (cf v 7 2) w with outq := rest }) ∧
    (ready .push → x.inq.length < x.depth → ∃ u : State, exec (.colliePush e h) s = .next u ∧
      u.chip.cch e.val h.val = { cNext x with inq := x.inq ++ [gs] }) ∧
    (x.loop = none → cNext x = { x with pc := x.pc + 1 }) ∧
    (ready .finish → ended (.collieEnd e h) 0) ∧
    (c.pwr.off = false → colOff c e.val = false → chanTurn c e.val h.val = true → x.inWindow x.pc = true →
      (let w := c.psWord e.val ((if x.half then 2048 else 0) + x.pc)
       psBad w = false → cTag (w.setWidth 18).toNat = .reserved → ended (.collieReserved e h) 7))

/-- R356, R359 to R366, R370 to R377 and R424. -/
def Obligations.CollieCommandsComplete : Prop :=
  ∀ (e : Fin 8) (h : Fin 16) (s : State) (who : Who),
    let c := s.chip
    let x := c.cch e.val h.val
    let p := pgCollie e.val
    let put (y : CChan) : State := s.on (fun c => c.setCch e.val h.val y)
    let runs (i : Instr) (f : Chip → Prop) : Prop := ∃ u : State, exec i s = .next u ∧ f u.chip
    (∀ mask : BitVec 16, c.takes who p 17 (mask.setWidth 36) = true → runs (.collieChstart who e mask) (fun c' => c'.mem = c.mem ∧
      ∀ i < 16, c'.cch e.val i = if mask.getLsbD i then { c.cch e.val i with st := 1, sync := false, base := (c.reg p 16).toNat }
        else c.cch e.val i)) ∧
    (∀ (ws : List Word) (c1 : Chip), c.pwr.off = false → x.st = 1 → bankClearing c 6 = false → ownWords 6 7 (x.base + 32 * h.val) c = (some ws, c1) →
      let y := { x with entry := ws }
      entryCheck (c1.setCch e.val h.val y) e.val h.val y = none → y.plen ≠ 0 →
      (x.sync = true → runs (.collieEntryLoaded e h) (fun c' => c'.cch e.val h.val = { y with st := 5 })) ∧
      (x.sync = false → runs (.collieEntryLoaded e h) (fun c' => c'.cch e.val h.val = { y with
        st := 2, half := bitAt (y.word 0) 35 != (x.redirect.getD (false, 0)).1, pc := (x.redirect.getD (false, y.pstart)).2
        g := (ws.drop 2).take 4, ser := 0, sern := 0, des := 0, desn := 0, redirect := none, grid := edgeTick c, regrid := false
        outq := x.outq.take (8 * (y.qdepth + 1)), inq := x.inq.take (8 * (y.qdepth + 1)) }))) ∧
    (∀ (r : Shift) (ext : BitVec 9), c.pwr.off = false → x.st = 2 → x.run = some r → r.at? = none → r.n ≠ 0 → x.held = none →
      x.cken = false → x.dwidth ≠ 0 →
      (∀ (w : Word) (rest : List Word), r.out = true → r.inp = false → x.sern = 0 → x.outq = w :: rest → x.dwidth ≤ x.wlen →
        x.obase + x.dwidth ≤ 9 →
        runs (.collieStep e h ext) (fun c' => (c'.cch e.val h.val).outq = rest ∧ (c'.cch e.val h.val).sern = x.wlen - x.dwidth ∧
          (c'.cch e.val h.val).run = (if r.n = 1 then x.queued else some { r with n := r.n - 1 }) ∧
          ∀ i < x.dwidth, c'.cpin e.val (x.obase + i) = (true, bitAt w (if x.msb then x.wlen - x.dwidth + i else i)))) ∧
      (r.out = false → r.inp = true → x.desn + x.dwidth < x.wlen → x.wlen ≤ 36 →
        runs (.collieStep e h ext) (fun c' => (c'.cch e.val h.val).desn = x.desn + x.dwidth ∧ c'.mem = c.mem ∧
          ∀ i < x.dwidth, bitAt (c'.cch e.val h.val).des (if x.msb then x.wlen - x.desn - x.dwidth + i else x.desn + i) =
            sampleOf c e.val ext (x.ibase + i))) ∧
      (r.out = true → x.sern = 0 → x.outq = [] → exec (.collieStep e h ext) s =
        .next (s.on (fun c => (c.setCch e.val h.val { x with stalled := true }).count p (64 + h.val) 1)))) ∧
    (∀ ext : BitVec 9, c.pwr.off = false → x.st = 2 →
      (∀ (n : Nat) (consume : Bool), x.wait = some (.event n consume) → x.events.getLsbD n = true → exec (.waitSatisfied e h ext) s =
        .next (put { x with wait := none, events := if consume then x.events &&& ~~~(1#16 <<< n) else x.events })) ∧
      (∀ (n : Nat) (v : Bool), x.wait = some (.flag n v false) → c.flag p 22 n = v →
        exec (.waitSatisfied e h ext) s = .next (put { x with wait := none })) ∧
      (∀ pin : Nat, x.wait = some (.pin 1 pin none) → sampleOf c e.val ext pin = true →
        exec (.waitSatisfied e h ext) s = .next (put { x with wait := none, stampW := edgeTick c }))) ∧
    (∀ (t : Word) (act mask : Nat), c.pwr.off = false → x.wait = some (.atPin t act mask) → tallyReached c t = true →
      exec (.atTimeReached e h) s =
        .next (s.on (fun c => pinAct e.val act mask (c.setCch e.val h.val { x with wait := none, stampA := edgeTick c })))) ∧
    (∀ (r : Shift) (t : Word), c.pwr.off = false → x.wait = none → x.run = some r → r.at? = some t → tallyReached c t = true →
      exec (.atTimeReached e h) s = .next (put { x with run := some { r with at? := none }, stampA := gridTick x (edgeTick c) })) ∧
    (∀ i : Fin 4, c.pwr.off = false → SMap.get (fun _ => false) c.col.tcmp (e.val * 4 + i.val) = true →
      tallyReached c (c.reg p (28 + i.val)) = true → runs (.tcmpEvent e i) (fun c' => c'.mem = c.mem ∧
        ∀ n < 16, c'.cch e.val n = { c.cch e.val n with events := (c.cch e.val n).events ||| (1#16 <<< i.val) })) ∧
    (∀ bits : BitVec 8, c.takes who p 24 (BitVec.ofNat 36 (16 * bits.toNat + h.val)) = true →
      exec (.collieDbell who e h bits) s = .next (put { x with events := x.events ||| (bits.setWidth 16 <<< 4) })) ∧
    (∀ v : Word, c.takes who p 27 v = true → bitAt v 0 = true → runs (.collieSync who e v) (fun c' => c'.mem = c.mem ∧
      ∀ d < 8, ∀ n < 16, c'.cch d n = if colOff c d then c.cch d n
        else { c.cch d n with events := (c.cch d n).events ||| 0x1000#16 })) ∧
    (∀ pc : BitVec 11, c.takes who p 19 (BitVec.ofNat 36 (16 * pc.toNat + h.val)) = true → x.st ≠ 0 → x.swap = none →
      exec (.collieSwap who e h pc) s = .next (put { x with swap := some pc.toNat })) ∧
    (∀ pc : BitVec 11, c.takes who p 19 (BitVec.ofNat 36 (2 ^ 15 + 16 * pc.toNat + h.val)) = true → x.st ≠ 0 →
      runs (.collieForcedSwap who e h pc) (fun c' => c'.cch e.val h.val = (if x.st = 2 then
          { abandonShift x with half := !x.half, pc := pc.toNat }
        else { x with swap := none, redirect := some (!(x.redirect.getD (false, 0)).1, pc.toNat) }) ∧
        c'.flag p (48 + h.val) 12 = true ∧ bitAt (c'.reg p 6) 32 = true ∧ c'.mem = c.mem)) ∧
    (∀ pc : Nat, c.pwr.off = false → x.swap = some pc → x.st = 2 → x.wait = none → x.shiftIdle = true → exec (.swapTakeEffect e h) s =
      .next (put { x with half := !x.half, pc := pc, loop := none, timed := none, swap := none })) ∧
    (∀ mask : BitVec 16, c.takes who p 18 (mask.setWidth 36) = true → runs (.collieChstop who e mask) (fun c' =>
      ∀ i < 16, mask.getLsbD i = true → (c.cch e.val i).st ≠ 0 → (c'.cch e.val i).st = 0 ∧
        c'.fld p (48 + i) 28 5 = 0o13 ∧ c'.flag p (48 + i) 12 = true ∧ bitAt (c'.reg p 6) 32 = true)) ∧
    (∀ v : Word, c.takes who p 26 v = true → mayStartChans c e.val v = true → tallyReached c (c.reg p 25) = false →
      runs (.collieArm who e v) (fun c' => c'.reg p 26 = v &&& 0xffffffff ∧ c'.mem = c.mem ∧ ∀ i < 16, c'.cch e.val i =
        if bitAt v i then { c.cch e.val i with st := 1, sync := true, base := (c.reg p 16).toNat } else c.cch e.val i)) ∧
    (c.pwr.off = false → c.reg p 26 ≠ 0 → tallyReached c (c.reg p 25) = true →
      (∀ i < 16, bitAt (c.reg p 26) i = true → (c.cch e.val i).st ≠ 1) → runs (.syncStart e) (fun c' => c'.reg p 26 = 0 ∧ c'.mem = c.mem ∧
        ∀ i < 16, (c'.cch e.val i).st = if (c.cch e.val i).st = 5 then 2 else (c.cch e.val i).st)) ∧
    (∀ v : Word, c.takes who p 21 v = true → let a := c.fld p 20 0 12
      exec (.psdataWrite who e v) s = .next (s.on (fun c => ((c.setPs e.val a (v >>> 18).toNat).setPs e.val (a + 1) (v.toNat % 2 ^ 18)).setReg p 20
        (BitVec.ofNat 36 (a / 2048 * 2048 + (a + 2) % 2048)))) ∧
      (a % 2 = 0 → psRead (((c.setPs e.val a (v >>> 18).toNat).setPs e.val (a + 1) (v.toNat % 2 ^ 18))) e.val = v)) ∧
    (c.takes who p 43 (BitVec.ofNat 36 (2 ^ 16 + h.val)) = true → exec (.qflush who e h) s = .next (put { x with outq := [], inq := [] })) ∧
    (∀ (opc : Nat) (ws : List Word) (tg : BitVec 6),
      let k := { request who true (windowNonet e.val h.val) (4 * if opc = opRd then 1 else ws.length)
        (if opc = opRd then [] else ws.flatMap nonetsOf) [] c with tag := tg }
      c.pwr.off = false → initOf who < 29 → initOf who ≠ 22 → opc ∈ [opRd, opWr] → freeTag { k with tag := 0 } c = some tg →
      stopHolds opc k c = false → (∀ g ∈ c.ring.flight, sameWay ⟨opc, k, false, none⟩ g = false) → circulates c k.dst = false →
      pageOff c p = false → windowOpen c e.val h.val = true →
      let answered (i : Instr) (data : List (BitVec 9)) (f : Chip → Prop) : Prop := runs i (fun c' => c'.mem = c.mem ∧ f c' ∧
        ∃ g : Fly, c'.ring.flight = c.ring.flight ++ [g] ∧ g.opc = (if opc = opWr then opAck else opData) ∧ g.k.dst = k.src ∧ g.k.tag = tg ∧
          g.k.status = 0 ∧ g.k.data = data)
      (opc = opWr → ws ≠ [] → ws.length ≤ windowRoom c e.val h.val → answered (.collieWindowWrite who e h ws) [] (fun c' =>
        c'.cch e.val h.val = (windowAppend e.val h.val ws c).cch e.val h.val ∧
        (x.wait = none → (c'.cch e.val h.val).outq = x.outq ++ ws))) ∧
      (opc = opRd → answered (.collieWindowRead who e h) (nonetsOf (x.inq.headD 0)) (fun c' =>
        (x.inq = [] → c'.flag p (48 + h.val) 15 = true) ∧
        (x.inq ≠ [] → x.wait = none → x.held = none → (c'.cch e.val h.val).inq = x.inq.tail)))) ∧
    (c.takes who pgHub 24 (withField (c.reg pgHub 24) e.val 1 1) = true → colOff c e.val = false → runs (.collieDomainOff who e) (fun c' =>
      c'.reg pgHub 24 = withField (c.reg pgHub 24) e.val 1 1 ∧ c'.fab = c.fab ∧ (∀ n < 16, (c'.cch e.val n).st = 0) ∧
      ∀ i < 9, c'.cpin e.val i = (false, false))) ∧
    (c.takes who pgHub 24 (withField (c.reg pgHub 24) e.val 1 0) = true → colOff c e.val = true → runs (.collieDomainOn who e) (fun c' =>
      c'.reg pgHub 24 = withField (c.reg pgHub 24) e.val 1 0 ∧ c'.fab = c.fab ∧ (∀ n < 16, c'.cch e.val n = CChan.init) ∧
      (∀ a < 4096, c'.psWord e.val a = 0) ∧ ∀ i < 9, c'.cpin e.val i = (false, false)))

/-- R48, R64, R381, R382, R384 to R388, R391, R398 and R399. -/
def Obligations.HostLinkComplete : Prop :=
  ∀ (s : State) (h : Fin 2) (f : Fin 4) (who : Who) (landed : List Bool),
    let c := s.chip
    let p := pgPcie h.val
    let q := pgPf f.val
    let runs (i : Instr) (g : Chip → Prop) : Prop := ∃ u : State, exec i s = .next u ∧ g u.chip
    let fresh (c' : Chip) (n : Nat) : Prop := c'.reg (pgPf n) 17 = 0 ∧ c'.reg (pgPf n) 16 = 0 ∧
      (∀ i < 512, c'.msix (n * 512 + i) = msixDefault (n * 512 + i)) ∧
      (∀ i < vectorCount n, c'.pbaOf (vectorBase n + i) = false) ∧ bitAt (c'.reg (pgPf n) 6) 0 = true
    let still : Prop := ∀ n < 2, ∀ e < 4, (c.dma n e).words = []
    (∀ (gen : BitVec 3) (width : Nat) (up : Bool), halfOn c h.val = true → linkUp c h.val = false →
      width ∈ [1, 2, 4, 8, 16] → width ≤ (if bifurcated c then 8 else 16) →
      (gen.toNat < 3 ∨ up = false → c.fld p 2 0 3 ≠ 0 → c.fld p 3 0 3 ≠ 3 → exec (.linkTrainingDone h gen width up) s = .next (s.on (fun c =>
        (c.setFld p 3 0 3 0).raise p 2))) ∧
      (3 ≤ gen.toNat → gen.toNat ≤ c.fld p 2 0 3 → runs (.linkTrainingDone h gen width true) (fun c' => linkUp c' h.val = true ∧ c'.fld p 3 11 3 = gen.toNat ∧ c'.fld p 3 6 5 = width ∧
        c'.flag p 3 5 = (gen == 6) ∧ bitAt (c'.reg p 6) 0 = true ∧ c'.mem = c.mem))) ∧
    (halfOn c h.val = true → still →
      (linkLive c h.val = true → runs (.linkDown h landed) (fun c' => linkUp c' h.val = false ∧ (∀ n < 4, pfHalf c n = h.val → fresh c' n) ∧
        bitAt (c'.reg p 6) 1 = true ∧ bitAt (c'.reg p 6) 3 = true ∧ c'.mem = c.mem)) ∧
      runs (.perst h landed) (fun c' => linkUp c' h.val = false ∧ (∀ n < 4, pfHalf c n = h.val → fresh c' n) ∧
        bitAt (c'.reg p 6) 3 = true ∧ c'.mem = c.mem)) ∧
    (cfgReach c f.val = true →
      (still → runs (.flr f landed) (fun c' => fresh c' f.val ∧ c'.mem = c.mem ∧
        ∀ n < 4, n ≠ f.val → c'.reg (pgPf n) 17 = c.reg (pgPf n) 17 ∧ c'.reg (pgPf n) 16 = c.reg (pgPf n) 16)) ∧
      (∀ sz : Fin 9, f ≠ 3 → exec (.bar2Resize f sz) s = .next (s.on (fun c => ((c.setFld q 17 12 4 sz.val).setFld q 16 0 8 0).raise q 1))) ∧
      (pfD3 c f.val = false → exec (.d3Entry f) s = .next (s.on (fun c => (c.setFlag q 17 11 true).raise q 2))) ∧
      exec (.d0Return f) s = .next (s.on (fun c => c.setFlag q 17 11 false)) ∧
      (∀ (bme mse msixEn fmask : Bool) (mps : Fin 3) (mrrs : Fin 6) (aer : BitVec 32), pfBme c f.val = false ∨ bme = true →
        runs (.configurationWrite f bme mse msixEn ⟨fmask, mps, mrrs, aer⟩ landed) (fun c' =>
        maxPayload c' f.val = 128 * 2 ^ mps.val ∧ maxReadRequest c' f.val = 128 * 2 ^ mrrs.val ∧
        pfBme c' f.val = bme ∧ pfMse c' f.val = mse ∧ pfMsixEn c' f.val = msixEn ∧ pfMask c' f.val = fmask ∧ pfD3 c' f.val = pfD3 c f.val ∧
        c'.mem = c.mem)) ∧
      exec (.unsupportedRequest f) s = .next (s.on (fun c => aerSet f.val 20 { c with out := c.out ++ [.cpl 1 false []] })) ∧
      (∀ off o : Nat, memOn c f.val = true → msixAt f.val off = some (true, o) → o % 4 = 0 → off % 4 = 0 →
        exec (.msixTableAccess f off none 4) s = .next (s.on (fun c => { c with out := c.out ++
          [.cpl 0 false (octetsOf 4 (msixDword c f.val true (o / 4)).toNat)] })) ∧
        (∀ data : List Octet, data.length = 4 → o / 16 < vectorCount f.val → exec (.msixTableAccess f off (some data) 4) s =
          .next (s.on (fun c => c.setMsix (f.val * 512 + o / 4)
            (if o / 4 % 4 = 3 then BitVec.ofNat 32 (le data) &&& 1 else BitVec.ofNat 32 (le data))))))) ∧
    (c.takes who p 2 (withField (c.reg p 2) 3 1 1) = true → c.fld p 2 0 3 ≠ 0 → runs (.retrain who h) (fun c' =>
      c'.fld p 3 0 3 = (if linkLive c h.val then 3 else 1) ∧ c'.fld p 2 0 3 = c.fld p 2 0 3 ∧ c'.mem = c.mem)) ∧
    (∀ a : Nat, f = 0 ∨ f = 2 → cfgReach c f.val = true → memOn c f.val = true → SMap.get (fun _ => []) c.hst.reqs (pfHalf c f.val) = [] → a % 4 = 0 →
      bankBase 4 ≤ a → a < bankBase 4 + 4 * bankWords 4 → bankOn c 4 = true → bankClearing c 4 = false →
      (∀ data : List Octet, data.length = 8 → runs (.hostMemWrite f .bar4 (2 * a) data false) (fun c' =>
        c'.bankWord a = BitVec.ofNat 36 (le data) ∧ c'.badNonets a = [] ∧ (∀ i, (i < a ∨ a + 4 ≤ i) → c'.cell i = c.cell i) ∧ c'.regs = c.regs)) ∧
      (c.badNonets a = [] → (∀ t ∈ c.hst.posted, t.1 ≠ pfHalf c f.val) → runs (.hostMemRead f .bar4 (2 * a) 8) (fun c' =>
        c'.out = c.out ++ [.cpl 0 false (octetsOf 8 (c.bankWord a).toNat)] ∧ c'.mem = c.mem ∧ c'.regs = c.regs)))

/-- R389 to R393. -/
def Obligations.DmaCommandsComplete : Prop :=
  ∀ (s : State) (h : Fin 2) (e : Fin 4) (who : Who) (host : List (BitVec 9)) (hostErr : Bool) (landed : List Bool),
    let c := s.chip
    let p := pgPcie h.val
    let b := 16 + 8 * e.val
    let x := c.dma h.val e.val
    let runs (i : Instr) (g : Chip → Prop) : Prop := ∃ u : State, exec i s = .next u ∧ g u.chip
    let ended (c' : Chip) (code : Nat) : Prop := (c'.dma h.val e.val).words = [] ∧
      c'.fld p (b + 4) 28 5 = code ∧ c'.fld p (b + 4) 33 3 = (if code ≤ 1 then 0 else 3) ∧
      (c'.dma h.val e.val).halted = decide (1 < code) ∧ (1 < code → bitAt (c'.reg p 6) (12 + e.val) = true) ∧
      (code ≤ 1 → bitAt (x.word 4) 27 = true → bitAt (c'.reg p 6) (8 + e.val) = true)
    (c.takes who p (b + 1) (withField (c.reg p (b + 1)) 35 1 1) = true → c.flag p (b + 1) 35 = false → x.words = [] →
      runs (.dmaEnable who h e) (fun c' => c'.flag p (b + 1) 35 = true ∧ c'.fld p (b + 4) 33 3 = 0 ∧ (c'.dma h.val e.val).halted = false ∧
        c'.reg p (b + 2) = c.reg p (b + 2) ∧ c'.reg p (b + 3) = c.reg p (b + 3) ∧ c'.mem = c.mem)) ∧
    (c.takes who p (b + 1) (withField (c.reg p (b + 1)) 35 1 0) = true → c.flag p (b + 1) 35 = true → x.words = [] →
      runs (.dmaDisable who h e host landed) (fun c' => c'.flag p (b + 1) 35 = false ∧ c'.reg p (b + 2) = c.reg p (b + 2) ∧
        c'.reg p (b + 3) = c.reg p (b + 3) ∧ c'.mem = c.mem)) ∧
    (∀ v : Word, c.takes who p b v = true → runs (.dqbaseWrite who h e v) (fun c' => c'.reg p b = v ∧ c'.reg p (b + 2) = 0 ∧
      c'.reg p (b + 3) = 0 ∧ c'.mem = c.mem)) ∧
    (∀ size : BitVec 12, c.takes who p (b + 1) (withField (c.reg p (b + 1)) 0 12 size.toNat) = true → c.flag p (b + 1) 35 = false →
      runs (.dqcfgSizeWrite who h e size) (fun c' => c'.fld p (b + 1) 0 12 = size.toNat ∧ c'.flag p (b + 1) 35 = false ∧
        c'.reg p (b + 2) = 0 ∧ c'.reg p (b + 3) = 0 ∧ c'.mem = c.mem)) ∧
    (∀ tail : BitVec 12, c.takes who p (b + 2) (tail.setWidth 36) = true → runs (.dqtailWrite who h e tail) (fun c' =>
      c'.fld p (b + 2) 0 12 = tail.toNat ∧ c'.reg p (b + 3) = c.reg p (b + 3) ∧ c'.mem = c.mem)) ∧
    (∀ (ws : List Word) (c1 : Chip), dmaReady c h.val e.val = true → bankOn c 4 = true →
      dmaEntry ((c.reg p b).toNat + 32 * c.fld p (b + 3) 0 12) c = (some ws, c1) →
      let y := { Dma.idle with words := ws }
      dmaCheck c1 h.val e.val y = none → y.mark = false →
      exec (.dmaDescriptorStart h e) s = .next (s.on (fun _ => (c1.setDma h.val e.val y).setFld p (b + 4) 33 3 1))) ∧
    (∀ (r : Srv) (c1 : Chip), c.pwr.off = false → c.fld p (b + 4) 33 3 = 2 → x.words ≠ [] →
      let a := x.srca + 4 * x.count
      let rd := (opRd, request (.dma h.val) true a 4 [] [] c)
      dmaGather h.val e.val (fun st => st == 0) [rd] c = (some [r], c1) → r.status = 0 →
      (wordOf r.data = 0 → exec (.dmaMarkerPoll h e) s = .next (s.on (fun _ =>
        (c1.setDma h.val e.val { c1.dma h.val e.val with xact := Xact.none }).setFld p (b + 4) 33 3 2))) ∧
      (∀ (ws : List Srv) (c2 : Chip), wordOf r.data ≠ 0 →
        dmaGather h.val e.val (fun st => st == 0) [rd, (opWr, request (.dma h.val) true a 4 (nonetsOf 0) [] c1)] c1 = (some ws, c2) →
        (∀ w ∈ ws, w.status = 0) → runs (.dmaMarkerPoll h e) (fun c' => c'.fld p (b + 4) 33 3 = 1 ∧ c'.mem = c2.mem ∧
          c'.dma h.val e.val = { c2.dma h.val e.val with xact := Xact.none, poison := x.poison || !r.mask.isEmpty }))) ∧
    (∀ (code : Nat), c.pwr.off = false → x.words ≠ [] → c.fld p (b + 4) 33 3 = 1 → bankClearing c 4 = false →
      code < 32 → x.code = some code →
      runs (.dmaDescriptorComplete h e host hostErr landed) (fun c' => ended c' code ∧ c'.fld p (b + 3) 0 12 =
        (if c.fld p (b + 1) 0 12 = 0 then 0 else (c.fld p (b + 3) 0 12 + 1) % c.fld p (b + 1) 0 12))) ∧
    (∀ (code : Nat) (c1 : Chip), c.pwr.off = false → x.words ≠ [] → c.fld p (b + 4) 33 3 = 1 → bankClearing c 4 = false →
      x.code = none → hostErr = false → (x.skind = 0 → host.length = x.size) →
      dmaMove h.val e.val (host.take x.size) none landed c = (some code, c1) →
      exec (.dmaDescriptorComplete h e host hostErr landed) s = .next (s.on (fun _ => dmaEnd h.val e.val code c1))) ∧
    (c.pwr.off = false → x.words ≠ [] → x.skind = 0 → x.code = none →
      runs (.dmaHostTimeout h e host landed) (fun c' => (c'.dma h.val e.val).words = [] ∧ (c'.dma h.val e.val).halted = true ∧
        c'.fld p (b + 4) 28 5 = 0o10 ∧ c'.fld p (b + 4) 33 3 = 3))

/-- R394 to R397. -/
def Obligations.EventHubComplete : Prop :=
  ∀ (s : State) (who : Who) (vec : BitVec 8) (i : Fin 4) (v : Word),
    let c := s.chip
    let f := (vectorPlace vec.toNat).1
    let key := msixKey f (vectorPlace vec.toNat).2 0
    let open' : Prop := (c.msix (key + 3)).getLsbD 0 = false ∧ pfMask c f = false ∧ pfBme c f = true ∧ linkUp c (pfHalf c f) = true
    let msg : Out := .msix f vec.toNat ((c.msix (key + 1)).toNat * 2 ^ 32 + (c.msix key).toNat) (c.msix (key + 2)).toNat
    let runs (j : Instr) (g : Chip → Prop) : Prop := ∃ u : State, exec j s = .next u ∧ g u.chip
    (c.takes who pgEvh 2 1 = true → exec (.evhRescan who) s = .next (s.on (fun c => (c.setFlag pgEvh 2 0 true).setFlag pgEvh 3 0 true))) ∧
    (c.pwr.off = false → c.flag pgEvh 3 0 = true → runs .evhRescanDone (fun c' => c'.flag pgEvh 3 0 = false ∧ c'.flag pgEvh 2 0 = false ∧
      bitAt (c'.reg pgEvh 6) 0 = true ∧ c'.mem = c.mem ∧
      ∀ (q src : Nat), q < 3072 → pageSource q = some src → (∀ o < 3072, o ≠ q → pageSource o ≠ some src) →
        c'.level src = (!pageGone c q && c.evOut q))) ∧
    (c.takes who pgEvh 70 (vec.setWidth 36) = true →
      (vectorOr c vec.toNat = false → exec (.evhVack who vec) s = .next s) ∧
      (vectorOr c vec.toNat = true → pfMsixEn c f = true →
        (open' → exec (.evhVack who vec) s = .next (s.on (fun c => { c with out := c.out ++ [msg] }))) ∧
        (¬ open' → exec (.evhVack who vec) s = .next (s.on (fun c => c.setPba vec.toNat true))))) ∧
    (c.pwr.off = false → c.pbaOf vec.toNat = true → pfMsixEn c f = true → open' →
      exec (.msixPendingSend vec) s = .next (s.on (fun c =>
        let c' := c.setPba vec.toNat false
        if vectorOr c vec.toNat then { c' with out := c'.out ++ [msg] } else c'))) ∧
    (c.takes who pgEvh (66 + i.val) v = true → runs (.evhTimerArm who i v) (fun c' => c'.reg pgEvh (66 + i.val) = v ∧
      c'.level (1146 + i.val) = false ∧ SMap.get (fun _ => false) c'.evh.armed i.val = true ∧
      (∀ o ≠ 1146 + i.val, c'.level o = c.level o) ∧ c'.mem = c.mem)) ∧
    (c.pwr.off = false → SMap.get (fun _ => false) c.evh.armed i.val = true → tallyReached c (c.reg pgEvh (66 + i.val)) = true →
      runs (.evhTimerExpiry i) (fun c' => c'.level (1146 + i.val) = true ∧ SMap.get (fun _ => false) c'.evh.armed i.val = false ∧
        (∀ o ≠ 1146 + i.val, c'.level o = c.level o) ∧ c'.mem = c.mem)) ∧
    (c.takes who pgEvh 17 v = true → let n := c.fld pgEvh 16 0 11
      runs (.rtdataWrite who v) (fun c' => (∀ j < 36, bitAt (c'.route n) j = if j < 17 then false
          else if j = 18 ∧ who ≠ .thonos then bitAt (c.route n) 18 else bitAt v j) ∧
        (∀ o ≠ n, c'.route o = c.route o) ∧ c'.reg pgEvh 16 = BitVec.ofNat 36 (if n = 1151 then 0 else n + 1) ∧ c'.mem = c.mem))

/-- R402 to R420, R428, R436, R457, R459, R517. -/
def Obligations.ModesComplete : Prop :=
  ∀ (s : State) (who : Who),
    let c := s.chip
    let runs (i : Instr) (g : Chip → Prop) : Prop := ∃ u : State, exec i s = .next u ∧ g u.chip
    let reset (cause : Nat) (c' : Chip) : Prop := c'.pwr.off = true ∧ c'.fld pgAon 16 31 5 = cause ∧
      c'.fld pgAon 16 26 5 = c.fld pgAon 16 31 5 ∧ bitAt (c'.reg pgAon 17) cause = true ∧
      c'.fld pgAon 18 0 36 = min (c.fld pgAon 18 0 36 + 1) (2 ^ 36 - 1) ∧ c'.mem = Mem.init ∧ c'.cpu = Cpu.init ∧ c'.arr = Arr.init ∧
      ∀ p q : Nat, q < 512 → p ≠ pgAon → c'.reg p q = regDefault (regKey p q)
    let idle : Prop := c.pwr.off = false ∧ c.pwr.clearing = false ∧ (c.mode = modeLinked ∨ c.mode = modeSplit →
      (∀ k < 4, c.mHeld k = true) ∧ ∀ x ∈ allChannels, (c.chan x.1 x.2.1 x.2.2).st = 0)
    let flock : Prop := c.mode = modeLinked ∨ c.mode = modeSplit
    (∀ x ∈ [(Instr.modeReqLinked who, 2), (.modeReqSplit who, 3), (.modeReqMaintenance who, 4), (.modeReqQuiescent who, 5), (.modeReqOff who, 7)],
      c.takes who pgHub 18 (BitVec.ofNat 36 x.2) = true →
      (modeCheck c x.2 = 0 → runs x.1 (fun c' => c'.flag pgHub 18 7 = true ∧ c'.fld pgHub 18 8 4 = 0 ∧ c'.pwr.target = some x.2 ∧
        c'.mode = c.mode ∧ c'.mem = c.mem)) ∧
      (modeCheck c x.2 ≠ 0 → runs x.1 (fun c' => c'.flag pgHub 18 7 = false ∧ c'.fld pgHub 18 8 4 = modeCheck c x.2 ∧
        bitAt (c'.reg pgHub 6) 1 = true ∧ c'.mode = c.mode ∧ c'.pwr = c.pwr ∧ c'.mem = c.mem ∧ c'.arr = c.arr))) ∧
    (∀ t : Nat, idle → c.pwr.target = some t →
      (t = 4 ∨ t = 5 ∨ ((t = 2 ∨ t = 3) ∧ (flock ∨ (c.mode = modeQuiescent ∧ c.pwr.retain = true))) →
        runs .modeChangeComplete (fun c' => c'.mode = t ∧ c'.flag pgHub 18 7 = false ∧ c'.pwr.target = none ∧ bitAt (c'.reg pgHub 6) 0 = true ∧
          (t = 5 → c'.fld pgHub 18 12 3 = c.mode))) ∧
      ((t = 2 ∨ t = 3) → (c.mode = modeMaint ∨ (c.mode = modeQuiescent ∧ c.pwr.retain = false)) →
        runs .modeChangeComplete (fun c' => c'.mode = c.mode ∧ c'.pwr.clearing = true ∧ c'.pwr.target = some t ∧
          (c.mode = modeMaint → c'.pwr.marks = 0))) ∧
      (t = 7 → runs .modeChangeComplete (fun c' => c'.pwr.off = true ∧ c'.fld pgAon 16 31 5 = 8 ∧ c'.mem = Mem.init))) ∧
    (∀ (r : Fin 14) (mv : BitVec 12) (dur : BitVec 24), c.pwr.aonLost = false →
      ∀ x ∈ [(Instr.sysRstAssert, 4), (.thermalTrip, 3), (.supplyReset r mv dur, 2)],
        (c.pwr.off = false → runs x.1 (fun c' => reset x.2 c' ∧ (x.2 = 3 → c'.pins.alert = true))) ∧
        (c.pwr.off = true → runs x.1 (fun c' => c'.pwr.off = true ∧ c'.pwr.causes = c.pwr.causes ++ [x.2] ∧
          bitAt (c'.reg pgAon 17) x.2 = true ∧ c'.reg pgAon 16 = c.reg pgAon 16 ∧ c'.mem = c.mem))) ∧
    (c.takes who pgHub 23 1 = true → runs (.hubDevrst who) (reset 7)) ∧
    (∀ x ∈ [(Instr.powerOnReset, false), (.vddAonLoss, true)], runs x.1 (fun c' => c'.pwr.off = true ∧ c'.pwr.aonLost = x.2 ∧
      c'.regs = Chip.reset.regs ∧ c'.mem = Mem.init ∧ c'.cpu = Cpu.init ∧ c'.arr = Arr.init ∧ c'.sec.active = [] ∧ c'.sec.tlog = [] ∧
      c'.sec.flash = c.sec.flash ∧ c'.sec.lcs = c.sec.lcs ∧ c'.sec.maps = c.sec.maps ∧ c'.tally = 0)) ∧
    (∀ f : BootFacts, mayLeaveOff c f = true → runs (.boot f) (fun c' => c'.pwr.off = false ∧ c'.mem.banks = [] ∧ c'.mem.hbm = [] ∧
      match (chooseSlot (bootPower f c) f.flashA f.flashB).1 with
      | none => c'.fld pgHub 20 31 4 = 2 ∧ c'.fld pgHub 20 26 5 = 1
      | some _ => c'.fld pgHub 20 31 4 = 8 ∧ c'.pwr.booting = true ∧ c'.pwr.clearing = true)) ∧
    (c.takes who pgHub 21 (BitVec.ofNat 36 (2 ^ 35)) = true → exec (.rmapCommit who) s = .next (s.on (fun c => c.setFlag pgHub 21 34 true))) ∧
    (c.pwr.off = false → c.flag pgHub 21 34 = true → runs .rmapCommitDone (fun c' => c'.sec.maps = c.sec.maps ++ [mapInUse c] ∧
      c'.flag pgHub 21 34 = false ∧ c'.fld pgHub 21 0 3 = c.sec.maps.length % 8 ∧ c'.flag pgHub 21 33 = decide (7 ≤ c.sec.maps.length) ∧
      c'.mem = c.mem)) ∧
    (c.takes who pgFlock 25 1 = true → exec (.ftestStart who) s = .next (s.on (fun c => c.setFlag pgFlock 3 0 true))) ∧
    (∀ found : BitVec 40, c.pwr.off = false → c.flag pgFlock 3 0 = true → runs (.foldTestDone found) (fun c' => c'.flag pgFlock 3 0 = false ∧
      c'.pwr.marks = c.pwr.marks ||| found ∧ bitAt (c'.reg pgFlock 6) 1 = true ∧ c'.mem = c.mem ∧
      (found &&& ~~~(mapInUse c ||| c.pwr.marks) ≠ 0 → bitAt (c'.reg pgFlock 6) 2 = true ∧ c'.flag pgHub 21 32 = true))) ∧
    (∀ k : Fin 4, c.takes who pgFlock (21 + k.val) 1 = true → runs (.mccmdReissue who k) (fun c' =>
      (∀ j ∈ c.flockCores k.val, c'.istop j = false) ∧ c'.cpu = c.cpu ∧ c'.mem = c.mem)) ∧
    (∀ k : Fin 4, c.takes who pgFlock (21 + k.val) 2 = true →
      ((∀ j ∈ c.flockCores k.val, (c.core j).retired = (c.core k.val).retired) → runs (.mccmdFlush who k) (fun c' =>
        (∀ j ∈ c.flockCores k.val, c'.istop j = false ∧ (c'.core j).queue = [] ∧ (c'.core j).flush = false ∧ (c'.mseq j).voted = none ∧
          c'.sr j srMSDEPTH = BitVec.ofNat 36 (c.mseq j).depth) ∧
        (∀ j : Nat, j ∉ c.flockCores k.val → c'.core j = c.core j ∧ c'.istop j = c.istop j) ∧ c'.cpu.w = c.cpu.w ∧ c'.mem = c.mem)) ∧
      ((∃ j ∈ c.flockCores k.val, c.linked = true ∧ c.running j = true ∧ c.dfault j = false ∧ c.halted j = false ∧
          (c.core j).retired < c.farthest k.val) → runs (.mccmdFlush who k) (fun c' =>
        ∀ j ∈ c.flockCores k.val, c'.istop j = c.istop j ∧ (c'.core j).queue = (c.core j).queue ∧ (c'.core j).flush = true)))

/-- R425 to R427, R432, R434, R435, R437 to R440, R442, R518. -/
def Obligations.PowerComplete : Prop :=
  ∀ (s : State),
    let c := s.chip
    let runs (i : Instr) (g : Chip → Prop) : Prop := ∃ u : State, exec i s = .next u ∧ u.chip.mem = c.mem ∧ g u.chip
    let others (i : Nat) (c' : Chip) : Prop := ∀ j : Nat, j ≠ i → c'.island j = c.island j
    (∀ r : Fin 14, c.pwr.aonLost = false → runs (.supplyDipBegin r) (fun c' => c'.rail r.val = ⟨true, false, 0⟩ ∧
      c'.flag pgAon 19 r.val = true ∧ (∀ i ∈ railIslands r.val, (c'.island i).hsup.contains r.val = true ∧ (c'.island i).half = true) ∧
      (∀ i : Nat, i ∉ railIslands r.val → c'.island i = c.island i) ∧
      ((c.rail r.val).dip = false → bitAt (c'.reg pgAon 6) 0 = true))) ∧
    (∀ (r : Fin 14) (mv : BitVec 12) (dur : BitVec 24), c.pwr.aonLost = false → (c.rail r.val).dip = true → (c.rail r.val).ended = false →
      let n := c.fld pgAon (33 + 2 * r.val) 0 24
      runs (.supplyDipEnd r mv dur) (fun c' => c'.rail r.val = ⟨true, true, 0⟩ ∧ c'.fld pgAon (32 + 2 * r.val) 24 12 = mv.toNat ∧
        c'.fld pgAon (32 + 2 * r.val) 0 24 = dur.toNat ∧ c'.fld pgAon (33 + 2 * r.val) 0 24 = min (n + 1) (2 ^ 24 - 1) ∧
        c'.fld pgAon (33 + 2 * r.val) 24 12 = (if n = 0 then mv.toNat else min (c.fld pgAon (33 + 2 * r.val) 24 12) mv.toNat) ∧
        c'.pwr.islands = c.pwr.islands)) ∧
    (∀ r : Fin 14, c.pwr.aonLost = false → (c.rail r.val).dip = true → (c.rail r.val).ended = true →
      let g := (c.rail r.val).group
      runs (.clockRampGroup r) (fun c' =>
        (∀ i ∈ railIslands r.val, i % 8 = g → c'.island i = { c.island i with hsup := (c.island i).hsup.filter (fun q => q != r.val) }) ∧
        (∀ i : Nat, i ∉ railIslands r.val ∨ i % 8 ≠ g → c'.island i = c.island i) ∧
        (g ≠ 7 → c'.rail r.val = ⟨true, true, g + 1⟩) ∧
        (g = 7 → c'.rail r.val = ⟨false, false, 0⟩ ∧ c'.flag pgAon 19 r.val = false ∧ bitAt (c'.reg pgAon 6) 1 = true))) ∧
    (∀ rs : List (Nat × BitVec 8), c.pwr.aonLost = false → (∀ x ∈ rs, x.1 < 1040) → (rs.map Prod.fst).Nodup →
      let limit := degrees (BitVec.ofNat 8 (c.fld pgAon 21 28 8))
      runs (.thermalSample rs) (fun c' =>
        (∀ x ∈ rs, (c'.island x.1).temp = x.2 ∧
          (c'.island x.1).tmax = if degrees (c.island x.1).tmax < degrees x.2 then x.2 else (c.island x.1).tmax) ∧
        (∀ i : Nat, i ∉ rs.map Prod.fst → c'.island i = c.island i) ∧ c'.fld pgAon 21 20 8 = (hottest c').1.toNat ∧
        c'.fld pgAon 21 0 11 = (hottest c').2 % 2048 ∧
        (limit ≤ degrees (hottest c').1 → c'.pins.alert = true ∧
          (degrees (BitVec.ofNat 8 (c.fld pgAon 21 20 8)) < limit → bitAt (c'.reg pgAon 6) 3 = true)) ∧
        (degrees (hottest c').1 ≤ limit - 2 → c.pwr.off = false → c'.pins.alert = false))) ∧
    (∀ i : Fin 1040, clocked c i.val = true → islandClass i.val ≠ 0 →
      let x := c.island i.val
      let t := degrees x.temp
      (x.thold = true → t ≤ 97 → runs (.throttleStep i) (fun c' => c'.island i.val = { x with thold := false, rising := true } ∧ others i.val c')) ∧
      (x.thold = false → 100 ≤ t → x.tstep = none → runs (.throttleStep i) (fun c' =>
        c'.island i.val = { x with tstep := some (x.step - 1), rising := false } ∧ bitAt (c'.reg pgAon 6) 2 = true ∧
        (i.val < 960 → bitAt (c'.reg (islandPage i.val) 6) 9 = true) ∧ others i.val c')) ∧
      (∀ n : Nat, x.thold = false → 100 ≤ t → x.tstep = some (n + 1) → runs (.throttleStep i) (fun c' =>
        c'.island i.val = { x with tstep := some n, rising := false } ∧ others i.val c')) ∧
      (x.thold = false → 103 ≤ t → x.tstep = some 0 → runs (.throttleStep i) (fun c' =>
        c'.island i.val = { x with thold := true, rising := false } ∧ others i.val c')) ∧
      (∀ n : Nat, x.thold = false → t < 100 → (x.rising = true ∨ t ≤ 97) → x.tstep = some n → runs (.throttleStep i) (fun c' =>
        c'.island i.val = (if x.plan ≤ n + 1 then { x with tstep := none, rising := false } else { x with tstep := some (n + 1), rising := true }) ∧
        others i.val c'))) ∧
    (∀ (i : Fin 1040) (d : BitVec 24), clocked c i.val = true →
      let x := c.island i.val
      let n := d.toNat
      runs (.delayMeasurement i d) (fun c' => (c'.island i.val).seen = true ∧ (c'.island i.val).m2g = min 511 (marginStep n 16) ∧
        (c'.island i.val).m2gmin = (if x.seen then min x.m2gmin (min 511 (marginStep n 16)) else min 511 (marginStep n 16)) ∧
        others i.val c' ∧
        (islandClass i.val = 0 → (c'.island i.val).mnow = min 511 (marginStep n 16) ∧
          (min 511 (marginStep n 16) < mfloor i.val → bitAt (c'.reg pgAon 6) 4 = true)) ∧
        (islandClass i.val ≠ 0 →
          (c'.island i.val).mnow = min 511 (if x.half then marginAt n (144 + x.step) 320 else marginStep n x.step) ∧
          c'.reg pgAon 26 = withField (withField 0 27 9 (worstIsland c').1) 0 11 (worstIsland c').2 ∧
          match planFor c i.val n with
          | none => (c'.island i.val).plan = 0 ∧ (c'.island i.val).exh = true ∧ (x.exh = false → bitAt (c'.reg pgAon 6) 4 = true)
          | some p => (c'.island i.val).exh = false ∧ (c'.island i.val).plan =
              (if p < x.plan then p else if x.plan < p ∧ 511 ≤ x.up then x.plan + 1 else x.plan)))) ∧
    (∀ i : Fin 1040, c.pwr.off = false →
      (islandClass i.val = 0 → exec (.floorTrip i) s = .next (s.on (fun c => c.raise pgAon 4))) ∧
      (islandClass i.val ≠ 0 → clocked c i.val = true → runs (.floorTrip i) (fun c' => c'.island i.val = { c.island i.val with trip := true } ∧
        others i.val c' ∧ (i.val < 960 → (c.island i.val).half = false → bitAt (c'.reg (islandPage i.val) 6) 8 = true)))) ∧
    (∀ i : Fin 1040, clocked c i.val = true → islandClass i.val ≠ 0 →
      let x := c.island i.val
      let next := if x.step < targetStep c i.val then x.step + 1 else if targetStep c i.val < x.step then x.step - 1 else x.step
      runs (.pllLock i) (fun c' => others i.val c' ∧ c'.island i.val = { x with step := next })) ∧
    (∀ (i : Fin 1040) (d : BitVec 24), clocked c i.val = false → islandClass i.val ≠ 0 →
      ∀ x ∈ [Instr.pllLock i, .throttleStep i, .floorTrip i, .delayMeasurement i d], exec x s = .next s)

/-- R474 to R486. -/
def Obligations.ThonosComplete : Prop :=
  ∀ (s : State),
    let c := s.chip
    let runs (i : Instr) (g : Chip → Prop) : Prop := ∃ u : State, exec i s = .next u ∧ g u.chip
    (∀ (fl : BitVec 2), ∀ x ∈ [(Instr.devInfo, 1, devInfo), (.update fl, 2, update fl), (.arbCommit, 3, arbCommit), (.lifecycle, 4, lifecycle),
        (.revoke, 5, revoke), (.attest, 6, attest), (.dbgChal, 7, dbgChal), (.dbgResp, 8, dbgResp), (.dbgPass, 9, dbgPass), (.relock, 10, relock)],
      c.pwr.off = false → c.flag pgThonos 3 23 = true → cmdOf c = x.2.1 → c.sec.afterWipe = none → bankClearing c 4 = false →
      let who := c.sec.sender.getD 3
      (senderOk x.2.1 who = false → exec x.1 s = .next (s.on (answer 1 []))) ∧
      (senderOk x.2.1 who = true → stateOk c x.2.1 who = false → exec x.1 s = .next (s.on (answer 2 []))) ∧
      (senderOk x.2.1 who = true → stateOk c x.2.1 who = true →
        (x.2.1 ∈ [7, 8, 9] → tamperActive c = true → exec x.1 s = .next (s.on (answer 0o13 []))) ∧
        (x.2.1 ∈ [8, 9] → tamperActive c = false → 8 ≤ c.sec.fails → exec x.1 s = .next (s.on (answer 0o11 [])))) ∧
      (∀ (code : Nat) (c1 : Chip), gateCode c x.2.1 who = 0 → readArgs x.2.1 c = (.inl code, c1) →
        exec x.1 s = .next (s.on (fun _ => commandFailed x.2.1 code c1))) ∧
      (∀ (args : List Octet) (c1 : Chip), senderOk x.2.1 who = true → stateOk c x.2.1 who = true →
        (x.2.1 ∈ [7, 8, 9] → tamperActive c = false) → (x.2.1 ∈ [8, 9] → c.sec.fails < 8) → readArgs x.2.1 c = (.inr args, c1) →
        exec x.1 s = .next (s.on (fun _ => x.2.2 args c1)))) ∧
    (∀ (code : Nat) (resp : List Octet), code < 32 → c.dbg.cmd = none →
      let c' := answer code resp c
      c'.fld pgThonos 3 18 5 = code ∧ c'.flag pgThonos 3 23 = false ∧ cmdOf c' = 0 ∧ bitAt (c'.reg pgThonos 6) tvCmdDone = true ∧
      c'.sec.sender = none ∧ c'.mem.hbm = c.mem.hbm ∧ (mboxOk c = true → resp = [] →
        c'.bankWord (mboxAt c) = withField (withField 0 35 1 1) 30 5 code ∧
        ∀ a : Nat, (a < mboxAt c ∨ mboxAt c + 4 ≤ a) → c'.cell a = c.cell a)) ∧
    ((dbgChal [] c).sec.nonceAt = c.tally ∧ ((dbgChal [] c).sec.nonce.map List.length) = some 48) ∧
    (∀ code : Nat, c.dbg.cmd = none → code < 32 →
      (code ≠ 0 → (∀ cmd : Nat, cmd ≠ 8 → cmd ≠ 9 → commandFailed cmd code c = answer code [] c) ∧
        ((dbgResult code c).sec.fails = c.sec.fails + 1 ∧ (dbgResult code c).fld pgThonos 3 18 5 = code ∧
          (c.sec.fails = 7 → bitAt ((dbgResult code c).reg pgThonos 6) tvLockout = true)) ∧
        commandFailed 9 code c = dbgResult code c ∧ commandFailed 8 code c = dbgResult code (dropNonce c)) ∧
      (dbgResult 0 c).sec.fails = 0 ∧ (dbgResult 0 c).sec.dbgSince = true ∧ (dbgResult 0 c).flag pgThonos 3 14 = true ∧
      bitAt ((dbgResult 0 c).reg pgThonos 6) tvDbgUnlock = true) ∧
    (arcOf (arbCommit [] c) = if arcOf c < (c.sec.booted.getD 8 0).toNat then min (c.sec.booted.getD 8 0).toNat 64 else arcOf c) ∧
    (relock [] c).flag pgThonos 3 14 = false ∧
    (∀ (fl : BitVec 2) (args : List Octet), (args.length ≠ 10 → update fl args c = answer 3 [] c) ∧
      (args ≠ [] → devInfo args c = answer 3 [] c ∧ arbCommit args c = answer 3 [] c ∧ dbgChal args c = answer 3 [] c ∧ relock args c = answer 3 [] c) ∧
      (args.length ≠ 640 → revoke args c = answer 3 [] c ∧ lifecycle args c = answer 3 [] c) ∧
      (args.length ≠ 48 → attest args c = answer 3 [] c) ∧
      (args.length ≠ 193 → dbgResp args c = commandFailed 8 3 c) ∧
      ((args.length = 0 ∨ 64 < args.length) → dbgPass args c = commandFailed 9 3 c)) ∧
    (c.pwr.off = false → (nonceOld c = true → exec .nonceExpiry s = .next (s.on (fun c => { c with sec := { c.sec with nonce := none } }))) ∧
      (nonceOld c = false → exec .nonceExpiry s = .next s)) ∧
    (∀ src : BitVec 2, c.pwr.aonLost = false → c.sec.active.contains src.toNat = false →
      (c.pwr.off = true → exec (.tamperResponse src) s = .next (s.on (fun c =>
        { c with sec := { c.sec with active := c.sec.active ++ [src.toNat], tlog := c.sec.tlog ++ [src.toNat] } }))) ∧
      (c.pwr.off = false → c.dbg.cmd = none → runs (.tamperResponse src) (fun c' => c'.pwr.off = false ∧
        c'.sec.active = c.sec.active ++ [src.toNat] ∧ c'.sec.tlog = c.sec.tlog ++ [src.toNat] ∧ c'.sec.tamperSince = true ∧
        c'.sec.nonce = none ∧ c'.flag pgThonos 3 14 = false ∧ bitAt (c'.reg pgThonos 6) tvTamper = true ∧ c'.flag pgThonos 3 23 = false ∧
        (c.flag pgThonos 3 23 = true → c'.fld pgThonos 3 18 5 = 0o13) ∧ bankWiping c' 7 = true ∧
        c'.sec.afterWipe = if c.sec.treset then some false else none))) ∧
    (c.pwr.off = false → bankWiping c 7 = true →
      (c.sec.afterWipe = none → exec .secureWipeDone s = .next (s.on wipeDone)) ∧
      (∀ lc : Bool, c.sec.afterWipe = some lc → runs .secureWipeDone (fun c' => c'.pwr.off = true ∧ c'.mem = Mem.init ∧
        c'.fld pgAon 16 31 5 = 5 ∧ c'.sec.active = c.sec.active ∧ c'.sec.tlog = c.sec.tlog ∧ c'.sec.afterWipe = none ∧ c'.sec.lcs = c.sec.lcs))) ∧
    (∀ src : BitVec 2, c.pwr.aonLost = false → exec (.tamperClear src) s = .next (s.on (fun c =>
      { c with sec := { c.sec with active := c.sec.active.filter (fun q => q != src.toNat) } })))

/-- R489 to R512, R520, R521 and R529. -/
def Obligations.GanderComplete : Prop :=
  ∀ (s : State) (jtag : Bool) (mask : BitVec 4),
    let c := s.chip
    let word (op : Nat) : Word := withField (withField 0 30 6 op) 26 4 mask.toNat
    let began (op : Nat) : Chip := { c with dbg := { c.dbg with cmd := some (word op), reqs := [], xact := Xact.none } }
    let asked (op : Nat) (qs : List (Nat × Pkt)) : Bool × Xact × Chip :=
      gather .gander (fun st => st == 0) qs Xact.none { began op with dbg := { (began op).dbg with reqs := qs } }
    let after (r : Bool × Xact × Chip) : Chip := { r.2.2 with dbg := { r.2.2.dbg with xact := r.2.1 } }
    let runs (i : Instr) (g : Chip → Prop) : Prop := ∃ u : State, exec i s = .next u ∧ g u.chip
    let ended (code : Nat) (c' : Chip) : Prop := c'.dbg.cmd = none ∧ fieldOf (c'.port 3) 30 5 = code ∧ bitAt (c'.reg pgGander 6) 2 = true
    let owner : Prop := c.pwr.off = false ∧ c.port 1 = BitVec.ofNat 36 (routeNo jtag) ∧ c.dbg.cmd = none
    let all : List (Instr × Nat) := [(Instr.ganderNop jtag mask, 0), (.auth jtag mask, 1), (.halt jtag mask, 2), (.ganderResume jtag mask, 3),
      (.step jtag mask, 4), (.feed jtag mask, 5), (.rdreg jtag mask, 6), (.wrreg jtag mask, 7), (.mrd jtag mask, 8), (.mwr jtag mask, 9),
      (.ganderDevrst jtag mask, 10)]
    (c.pwr.off = false → c.port 1 = BitVec.ofNat 36 (routeNo jtag) → c.dbg.cmd ≠ none →
      ∀ x ∈ all, exec x.1 s = .next (s.on (fun c => c.setPort 3 (withField (c.port 3) 16 1 1)))) ∧
    (owner → authorised c = false → ∀ x ∈ all, 2 ≤ x.2 → exec x.1 s = .next (s.on (fun _ => portEnd 2 (began x.2)))) ∧
    (∀ (code : Nat) (d : Chip), code < 32 → ended code (portEnd code d) ∧ (portEnd code d).cpu = d.cpu ∧ (portEnd code d).mem = d.mem) ∧
    (owner → mask = 0 → exec (.ganderNop jtag mask) s = .next (s.on (fun _ => portEnd 0 (began 0)))) ∧
    (owner → mask = 0 → (c.port 4).toNat < 64 → (c.port 5).toNat ≤ 1024 → c.flag pgThonos 3 23 = false →
      let r := asked 1 (authReqs (c.port 4).toNat (c.port 5).toNat (began 1))
      (r.1 = true → lastStatus r.2.1.ans = 0 → exec (.auth jtag mask) s = .next (s.on (fun _ =>
        { after r with dbg := { (after r).dbg with reqs := [], xact := Xact.none } }))) ∧
      (r.1 = true → lastStatus r.2.1.ans ≠ 0 → exec (.auth jtag mask) s = .next (s.on (fun _ =>
        cmdEnd 6 [BitVec.ofNat 36 (lastStatus r.2.1.ans)] (after r)))) ∧
      (r.1 = false → exec (.auth jtag mask) s = .next (s.on (fun _ => after r)))) ∧
    (owner → authorised c = true → mask ≠ 0 →
      ((∀ k < 4, mask.getLsbD k = true → c.running k = true) → runs (.halt jtag mask) (fun c' => ended 0 c' ∧
        ∀ k < 4, mask.getLsbD k = true → c.halted k = false → (c.core k).halt = none → (c'.core k).halt = some 1)) ∧
      ((∃ k < 4, mask.getLsbD k = true ∧ c.running k = false) → exec (.halt jtag mask) s = .next (s.on (fun _ => portEnd 3 (began 2)))) ∧
      ((∀ k < 4, c.flag (pgWdg k) 3 2 = false ∧ c.fld (pgMseq k) 2 0 3 = 0) → runs (.ganderResume jtag mask) (fun c' => ended 0 c' ∧
        ∀ k < 4, mask.getLsbD k = true → c.halted k = true → c'.halted k = false ∧ (c'.core k).skip = true ∧ (c'.core k).failStc = true ∧
          (c'.core k).stepping = false))) ∧
    (owner → authorised c = true → c.linked = false → ∀ k : Fin 4, mask = BitVec.ofNat 4 (2 ^ k.val) → c.halted k.val = true →
      runs (.step jtag mask) (fun c' => c'.dbg.cmd = some (word 4) ∧ c'.halted k.val = false ∧ (c'.core k.val).stepping = true ∧
        (c'.core k.val).skip = true ∧ c'.mem = c.mem) ∧
      (∀ c1 : Chip, feedOne k.val (c.port 4) (c.port 5) (began 5) = .inr c1 →
        exec (.feed jtag mask) s = .next (s.on (fun _ =>
          if (c1.core k.val).cop.isNone && (c1.core k.val).xact == Xact.none then portEnd 0 c1 else c1))) ∧
      (∀ x y : Word, feedOne k.val (c.port 4) (c.port 5) (began 5) = .inl (5, x, y) →
        exec (.feed jtag mask) s = .next (s.on (fun _ => portEnd 5 (began 5)))) ∧
      (∀ (x y : Word), feedOne k.val (c.port 4) (c.port 5) (began 5) = .inl (4, x, y) →
        exec (.feed jtag mask) s = .next (s.on (fun _ => portEnd 4 (((began 5).setPort 8 x).setPort 9 y)))) ∧
      (∀ r : BitVec 5, c.port 4 = r.setWidth 36 →
        exec (.rdreg jtag mask) s = .next (s.on (fun _ => portEnd 0 (((began 6).setPort 8 (c.w k.val r)).setPort 9 0))) ∧
        exec (.wrreg jtag mask) s = .next (s.on (fun _ => portEnd 0 ((began 7).setW k.val r (c.port 5))))) ∧
      (c.port 4 = 0o100 → (c.port 5).toNat % 4 = 0 → (c.port 5).toNat ≤ 0o17777774 →
        exec (.wrreg jtag mask) s = .next (s.on (fun _ => portEnd 0 ((began 7).setPc k.val (c.port 5)))))) ∧
    (owner → authorised c = true → mask = 0 →
      (memArgs true (began 8) = none → exec (.mrd jtag mask) s = .next (s.on (fun _ => portEnd 1 (began 8)))) ∧
      (memArgs false (began 9) = none → exec (.mwr jtag mask) s = .next (s.on (fun _ => portEnd 1 (began 9)))) ∧
      (∀ (b : Bool) (a n : Nat), memArgs true (began 8) = some (b, a, n) →
        let r := asked 8 (mrdReqs b a n (began 8))
        let x := r.2.1.ans.getLastD (Srv.of 0)
        exec (.mrd jtag mask) s = .next (s.on (fun _ => if r.1 = false then after r
          else if x.status = 0 then cmdEnd 0 [0, BitVec.ofNat 36 x.mask.length, BitVec.ofNat 36 (x.mask.headD 0)] (setBuf x.data (after r))
          else cmdEnd 6 [BitVec.ofNat 36 x.status] (after r)))) ∧
      (∀ (b : Bool) (a n : Nat), memArgs false (began 9) = some (b, a, n) →
        let r := asked 9 (mwrReqs b a n (began 9))
        exec (.mwr jtag mask) s = .next (s.on (fun _ => if r.1 = false then after r
          else cmdEnd (if lastStatus r.2.1.ans = 0 then 0 else 6) [BitVec.ofNat 36 (lastStatus r.2.1.ans)] (after r)))) ∧
      runs (.ganderDevrst jtag mask) (fun c' => c'.pwr.off = true ∧ c'.fld pgAon 16 31 5 = 6 ∧ c'.mem = Mem.init)) ∧
    (∀ (k : Fin 4) (h : BitVec 6), c.pwr.off = false → c.linked = false → c.running k.val = true → c.halted k.val = false →
      (c.core k.val).halt = some h → (c.dfault k.val = true ∨ atBoundary c k.val = true) →
      runs (.debugHaltEntry k) (fun c' => c'.halted k.val = true ∧ c'.flag (pgBw k.val) 3 2 = false ∧ c'.fld pgGander 17 (9 * k.val) 9 = h.toNat ∧
        (c'.core k.val).halt = none ∧ (c'.core k.val).resv = none ∧ (c'.core k.val).stepping = false ∧ bitAt (c'.reg pgGander 6) 0 = true ∧
        c'.mem = c.mem ∧ c'.cpu.w = c.cpu.w ∧ c'.cpu.sp = c.cpu.sp)) ∧
    (c.pwr.off = false → c.evh.gaRise = true → runs .ganderEventInput (fun c' => c'.evh.gaRise = false ∧ c'.mem = c.mem ∧
      ∀ k < 4, gaBit c k 8 = true → c.running k = true → c.halted k = false → (c.core k).halt = none → (c'.core k).halt = some 5)) ∧
    (c.pwr.off = false → c.port 1 = BitVec.ofNat 36 (routeNo jtag) → authorised c = true → ∀ (k : Fin 4) (v : Word),
      (c.linked = true → k.val = 0) →
      ((∀ j ∈ c.flockCores k.val, (c.termTx j).isSome = true) → runs (.termRead jtag k) (fun c' =>
        (∀ j ∈ c.flockCores k.val, c'.termTx j = none) ∧ (jtag = true → some c'.dbg.jdata = c.termTx k.val ∧ c'.dbg.jdone = true) ∧
        c'.cpu = c.cpu ∧ c'.mem = c.mem)) ∧
      ((∀ j ∈ c.flockCores k.val, c.termRx j = none) → runs (.termWrite jtag k v) (fun c' =>
        (∀ j ∈ c.flockCores k.val, c'.termRx j = some v) ∧ c'.dbg.port = c.dbg.port)) ∧
      ((∃ j ∈ c.flockCores k.val, c.termRx j ≠ none) → exec (.termWrite jtag k v) s = .next (s.on portRefuse))) ∧
    (∀ own : BitVec 2, c.pwr.off = false →
      (c.port 1 = 0 → own.toNat = routeNo jtag → runs (.portOwnWrite jtag own) (fun c' => (c'.port 1).toNat = routeNo jtag)) ∧
      (c.port 1 = BitVec.ofNat 36 (routeNo jtag) → own = 0 → runs (.portOwnWrite jtag own) (fun c' => c'.port 1 = 0))) ∧
    (∀ v : BitVec 303, c.pwr.aonLost = false →
      (c.pins.ir = 0x28 → c.pwr.off = false → v.getLsbD 45 = true → exec (.jtagUpdateDr v) s = .next (s.on (fun c =>
        let c' := dbgWrite true ((v >>> 36).setWidth 9).toNat (v.setWidth 36) c
        { c' with dbg := { c'.dbg with jdone := true } }))) ∧
      (c.pins.ir = 0x28 → c.pwr.off = false → v.getLsbD 45 = false → exec (.jtagUpdateDr v) s = .next (s.on (fun c =>
        let r := dbgRead true ((v >>> 36).setWidth 9).toNat c
        { r.2 with dbg := { r.2.dbg with jdata := r.1, jdone := true } }))) ∧
      (c.pins.ir = 0x00 ∨ c.pins.ir = 0x02 → exec (.jtagUpdateDr v) s = .next (s.on (fun c => { c with pins := { c.pins with bsr := v } })))) ∧
    (c.pwr.aonLost = false → (∀ (ir : BitVec 6) (low : Bool), exec (.jtagUpdateIr ir low) s = .next (s.on (fun c =>
        { c with pins := { c.pins with ir :=
          if ir = 0x01 ∨ ir = 0x02 ∨ ir = 0x28 ∨ ((ir = 0x00 ∨ ir = 0x04 ∨ ir = 0x05) ∧ pinTestOk c low = true) then ir else 0x3F } }))) ∧
      (c.pins.ir = 0x01 → captureDr c = (32, ((partWord.setWidth 4 : BitVec 4) ++ 0x7236BC7#28).setWidth 303)) ∧
      runs .tapReset (fun c' => c'.pins.ir = 1 ∧ (c.port 1 = 1 → c'.port 1 = 0) ∧ (c.port 1 = 2 → c'.port 1 = 2))) ∧
    (∀ (i3c : Bool) (p slot : BitVec 16), c.pwr.aonLost = false →
      let q := SMap.get (fun _ => (0, 0)) c.pins.sel i3c.toNat
      let ok := mgmtServed q.1 q.2 && decide (q.2 < 512)
      let st := if !ok then 2 else if c.pwr.off && q.1 != pgAon then 1 else 0
      let v : Word := if st = 0 then slotValue q.1 q.2 c else 0
      runs (.mgmtSelect i3c p slot) (fun c' => SMap.get (fun _ => (0, 0)) c'.pins.sel i3c.toNat = (p.toNat, slot.toNat) ∧
        c'.fld pgBoard 16 0 36 = (if c.pwr.off then c.fld pgBoard 16 0 36 else min (c.fld pgBoard 16 0 36 + 1) (2 ^ 36 - 1))) ∧
      runs (.mgmtRead i3c) (fun c' => c'.out = c.out ++ [.mgmt ((List.range 4).map (fun i => (v >>> (8 * i)).setWidth 8) ++
          [((v >>> 32).setWidth 4).setWidth 8, BitVec.ofNat 8 st])] ∧ c'.mem = c.mem ∧
        (c.pwr.off = false → st = 2 → bitAt (c'.reg pgBoard 6) 0 = true))) ∧
    (∀ a : BitVec 7, c.pwr.off = false → runs (.i3cDaa a) (fun c' => c'.fld pgBoard 3 10 7 = a.toNat ∧ c'.mem = c.mem ∧
      (c.pins.ibiPending = true → a ≠ 0 → c'.out = c.out ++ [.ibi a.toNat] ∧ c'.pins.ibiPending = false)))

/-- R412, R428: what has power in OFF. -/
def Obligations.OffIsolation : Prop :=
  ∀ (s : State) (i : Instr), s.chip.pwr.off = true →
    (alwaysOn i = false → exec i s = .next s) ∧
    (alwaysOn i = true → ∃ t : State, exec i s = .next t ∧ ((∀ f, i ≠ .boot f) → t.chip.pwr.off = true) ∧
      (resetsAon i = false → t.chip.mem = s.chip.mem ∧ t.chip.cpu = s.chip.cpu ∧ t.chip.arr = s.chip.arr)) ∧
    (s.chip.pwr.aonLost = true → i ≠ .powerOnReset → i ≠ .vddAonLoss → exec i s = .next s)

/-- No command faults or is refused, and the form of the memories is an invariant (the queue and the form are the model's, log entry 1). -/
def Obligations.StepKeepsInvariant : Prop :=
  ∀ s : State, Memory.wf s.chip.mem = true →
    ∃ t : State, step s = .next t ∧ t.pending = s.pending.tail ∧ Memory.wf t.chip.mem = true

/-- The frames of R164, R170 to R177; `Tag.dests` and `Tag.flags` say which registers and flags an instruction writes. -/
def Obligations.ScalarFrames : Prop :=
  ∀ (k : Fin 4) (s : State) (w : Word),
    let c := s.chip
    let a := c.w k.val (wRa w) + sextImm w
    let inBank (n : Nat) : Prop := a.toNat % n = 0 ∧ bankBase k.val ≤ a.toNat ∧ a.toNat + n ≤ bankBase k.val + 4 * bankWords k.val
    let kept (g : Tag) (fp : Bool) (t : State) : Prop :=
      (∀ r : BitVec 5, (∀ j < g.dests w, r ≠ wRd w + BitVec.ofNat 5 j) → t.chip.w k.val r = c.w k.val r) ∧
      (∀ i < 32, i ≠ srPC → i ≠ srPSW → i ≠ srLCNT → (fp = true → i ≠ srFPSW) → t.chip.sr k.val i = c.sr k.val i) ∧
      (∀ b : Nat, pswLA < b → t.chip.psw k.val b = c.psw k.val b) ∧
      (g.flags = false → t.chip.psw k.val pswC = c.psw k.val pswC ∧ t.chip.psw k.val pswV = c.psw k.val pswV) ∧
      (∀ j : Nat, j ≠ k.val → (∀ r : BitVec 5, t.chip.w j r = c.w j r) ∧ ∀ i < 32, t.chip.sr j i = c.sr j i) ∧
      t.pending = s.pending
    (∀ x ∈ [(Instr.aluAdd k, Tag.alu 0), (.aluSub k, .alu 1), (.aluAddc k, .alu 2), (.aluSubc k, .alu 3), (.aluNeg k, .alu 4), (.aluAnd k, .alu 5),
        (.aluOr k, .alu 6), (.aluXor k, .alu 7), (.aluAndn k, .alu 8), (.aluOrn k, .alu 9), (.aluXnor k, .alu 10), (.aluSlt k, .alu 11),
        (.aluSltu k, .alu 12), (.aluMin k, .alu 13), (.aluMax k, .alu 14), (.aluMinu k, .alu 15), (.aluMaxu k, .alu 16), (.shiftShl k, .shift 0),
        (.shiftShr k, .shift 1), (.shiftSar k, .shift 2), (.shiftRol k, .shift 3), (.shiftRor k, .shift 4), (.muldivMul k, .muldiv 0),
        (.muldivMulu k, .muldiv 1), (.muldivMulf k, .muldiv 2), (.muldivMulfu k, .muldiv 3), (.muldivDiv k, .muldiv 4),
        (.muldivDivu k, .muldiv 5), (.muldivDivd k, .muldiv 6), (.muldivDivdu k, .muldiv 7), (.scAddi k, .imm 0o020), (.scAndi k, .imm 0o021),
        (.scOri k, .imm 0o022), (.scXori k, .imm 0o023), (.scSlti k, .imm 0o024), (.scSltiu k, .imm 0o025), (.scLui k, .imm 0o026),
        (.fpuFadd k, .fpu 0), (.fpuFsub k, .fpu 1), (.fpuFmul k, .fpu 2), (.fpuFdiv k, .fpu 3), (.fpuFma k, .fpu 4), (.fpuFcmp k, .fpu 5),
        (.fpuFneg k, .fpu 6), (.fpuFabs k, .fpu 7), (.fcvtIntToBinary32 k, .fcvt 0), (.fcvtIntToBinary64 k, .fcvt 1),
        (.fcvtBinary32ToInt k, .fcvt 2), (.fcvtBinary64ToInt k, .fcvt 3), (.fcvtBinary32ToBinary64 k, .fcvt 4),
        (.fcvtBinary64ToBinary32 k, .fcvt 5)],
      c.ready k.val x.2 w = true → (∀ f, x.2 = .muldiv f → 4 ≤ f → val c k.val (decide (6 ≤ f)) (wRb w) ≠ 0) →
      let fp : Bool := match x.2 with | .fpu _ => true | .fcvt _ => true | _ => false
      ∃ t : State, exec x.1 s = .next t ∧ kept x.2 fp t ∧ { t.chip with cpu := c.cpu } = c ∧
        (∀ b : Nat, 5 ≤ b → bitAt (t.chip.sr k.val srFPSW) b = bitAt (c.sr k.val srFPSW) b) ∧
        (∀ b : Nat, bitAt (c.sr k.val srFPSW) b = true → bitAt (t.chip.sr k.val srFPSW) b = true)) ∧
    (∀ x ∈ [(Instr.scStn k, 0o040, 1), (.scSth k, 0o041, 2), (.scStw k, 0o042, 4), (.scStd k, 0o043, 8)],
      c.ready k.val (.store x.2.1) w = true → inBank x.2.2 →
      ∃ t : State, exec x.1 s = .next t ∧ kept (.store x.2.1) false t ∧ t.chip.regs = c.regs ∧ t.chip.mem.hbm = c.mem.hbm ∧
        (∀ b : Nat, (b < a.toNat ∨ a.toNat + x.2.2 ≤ b) → t.chip.cell b = c.cell b) ∧
        ∀ i < x.2.2, (t.chip.cell (a.toNat + i)).setWidth 9 = ((c.w k.val (wRd w + 1) ++ c.w k.val (wRd w)) >>> (9 * i)).setWidth 9) ∧
    (∀ x ∈ [(Instr.scLdn k, 0o030, 1), (.scLdns k, 0o031, 1), (.scLdh k, 0o032, 2), (.scLdhs k, 0o033, 2), (.scLdw k, 0o034, 4),
        (.scLdd k, 0o035, 8)],
      c.ready k.val (.load x.2.1) w = true → inBank x.2.2 → (∀ i < x.2.2, nonetBad (c.cell (a.toNat + i)) = false) →
      ∃ t : State, exec x.1 s = .next t ∧ kept (.load x.2.1) false t ∧ { t.chip with cpu := c.cpu } = c)
end

