-- ==== Sys2Proof/Laws/Cells.lean ====
section
/-!
SUPPORT. What the sparse maps do: a read after a write, other keys unchanged, and the canonical form kept.
-/
namespace Sys2Proof.Machine

variable {α : Type} (d : Nat → α)

@[simp] theorem SMap.get_nil (k : Nat) : SMap.get d [] k = d k := rfl

theorem SMap.get_cons (e : Nat × α) (m : SMap α) (k : Nat) :
    SMap.get d (e :: m) k = if e.1 = k then e.2 else SMap.get d m k := rfl

theorem SMap.get_insert_self (m : SMap α) (k : Nat) (v : α) : SMap.get d (SMap.insert m k v) k = v := by
  induction m with
  | nil => simp [SMap.insert, SMap.get]
  | cons e m ih =>
    obtain ⟨k', v'⟩ := e
    by_cases h : k < k'
    · simp [SMap.insert, SMap.get, h]
    · by_cases h2 : k = k'
      · simp [SMap.insert, SMap.get, h2]
      · simp [SMap.insert, SMap.get, h, h2, Ne.symm h2, ih]

theorem SMap.get_insert_other (m : SMap α) (k j : Nat) (v : α) (h : j ≠ k) :
    SMap.get d (SMap.insert m k v) j = SMap.get d m j := by
  induction m with
  | nil => simp [SMap.insert, SMap.get, h.symm]
  | cons e m ih =>
    obtain ⟨k', v'⟩ := e
    simp only [SMap.insert]
    split
    · simp [SMap.get, h.symm]
    · split
      · rename_i h1 h2
        subst h2
        simp [SMap.get, h.symm]
      · simp [SMap.get, ih]

theorem SMap.get_drop_in (p : Nat → Bool) (m : SMap α) (k : Nat) (h : p k = true) :
    SMap.get d (SMap.drop p m) k = d k := by
  induction m with
  | nil => rfl
  | cons e m ih =>
    obtain ⟨k', v'⟩ := e
    by_cases hp : p k' = true
    · simpa [SMap.drop, hp] using ih
    · have : k' ≠ k := fun he => hp (he ▸ h)
      simp only [SMap.drop, List.filter_cons, hp] at *
      simp [SMap.get, this, ih]

theorem SMap.get_drop_out (p : Nat → Bool) (m : SMap α) (k : Nat) (h : p k = false) :
    SMap.get d (SMap.drop p m) k = SMap.get d m k := by
  induction m with
  | nil => rfl
  | cons e m ih =>
    obtain ⟨k', v'⟩ := e
    by_cases hp : p k' = true
    · have : k' ≠ k := fun he => by simp [he, h] at hp
      simpa [SMap.drop, hp, SMap.get, this] using ih
    · simp only [SMap.drop, List.filter_cons, hp] at *
      simp [SMap.get, ih]

variable [DecidableEq α]

@[simp] theorem SMap.get_set_self (m : SMap α) (k : Nat) (v : α) : SMap.get d (SMap.set d m k v) k = v := by
  unfold SMap.set
  split
  · rename_i h
    rw [SMap.get_drop_in d _ m k (by simp), h]
  · exact SMap.get_insert_self d m k v

theorem SMap.get_set_other (m : SMap α) (k j : Nat) (v : α) (h : j ≠ k) :
    SMap.get d (SMap.set d m k v) j = SMap.get d m j := by
  unfold SMap.set
  split
  · exact SMap.get_drop_out d _ m j (by simp [h])
  · exact SMap.get_insert_other d m k j v h

/-- A read after a write, at any key. -/
theorem SMap.get_set (m : SMap α) (k j : Nat) (v : α) :
    SMap.get d (SMap.set d m k v) j = if j = k then v else SMap.get d m j := by
  split
  · rename_i h; subst h; simp
  · rename_i h; exact SMap.get_set_other d m k j v h

/-! ### The canonical form -/

theorem SMap.wfFrom_mono (m : SMap α) (lo lo' : Nat) (h : lo' ≤ lo) (hm : SMap.wfFrom d lo m = true) :
    SMap.wfFrom d lo' m = true := by
  cases m with
  | nil => rfl
  | cons e m =>
    obtain ⟨k, v⟩ := e
    simp only [SMap.wfFrom, Bool.and_eq_true, decide_eq_true_eq] at *
    exact ⟨⟨Nat.le_trans h hm.1.1, hm.1.2⟩, hm.2⟩

theorem SMap.wfFrom_drop (p : Nat → Bool) (m : SMap α) (lo : Nat) (hm : SMap.wfFrom d lo m = true) :
    SMap.wfFrom d lo (SMap.drop p m) = true := by
  induction m generalizing lo with
  | nil => rfl
  | cons e m ih =>
    obtain ⟨k, v⟩ := e
    simp only [SMap.wfFrom, Bool.and_eq_true, decide_eq_true_eq] at hm
    by_cases hp : p k = true
    · have : SMap.drop p ((k, v) :: m) = SMap.drop p m := by simp [SMap.drop, hp]
      rw [this]
      exact SMap.wfFrom_mono d _ (k + 1) lo (by omega) (ih _ hm.2)
    · have : SMap.drop p ((k, v) :: m) = (k, v) :: SMap.drop p m := by simp [SMap.drop, hp]
      rw [this]
      simp only [SMap.wfFrom, Bool.and_eq_true, decide_eq_true_eq]
      exact ⟨hm.1, ih _ hm.2⟩

theorem SMap.wfFrom_insert (m : SMap α) (lo k : Nat) (v : α) (hk : lo ≤ k) (hv : v ≠ d k)
    (hm : SMap.wfFrom d lo m = true) : SMap.wfFrom d lo (SMap.insert m k v) = true := by
  induction m generalizing lo with
  | nil => simp [SMap.insert, SMap.wfFrom, hk, hv]
  | cons e m ih =>
    obtain ⟨k', v'⟩ := e
    simp only [SMap.wfFrom, Bool.and_eq_true, decide_eq_true_eq] at hm
    obtain ⟨⟨h1, h2⟩, h3⟩ := hm
    simp only [SMap.insert]
    split
    · rename_i hlt
      simp only [SMap.wfFrom, Bool.and_eq_true, decide_eq_true_eq]
      exact ⟨⟨hk, hv⟩, ⟨⟨by omega, h2⟩, h3⟩⟩
    · split
      · rename_i he
        subst he
        simp only [SMap.wfFrom, Bool.and_eq_true, decide_eq_true_eq]
        exact ⟨⟨hk, hv⟩, h3⟩
      · simp only [SMap.wfFrom, Bool.and_eq_true, decide_eq_true_eq]
        exact ⟨⟨h1, h2⟩, ih _ (by omega) h3⟩

theorem SMap.wf_drop (p : Nat → Bool) (m : SMap α) (hm : SMap.wf d m = true) : SMap.wf d (SMap.drop p m) = true :=
  SMap.wfFrom_drop d p m 0 hm

/-- A write keeps the canonical form. -/
theorem SMap.wf_set (m : SMap α) (k : Nat) (v : α) (hm : SMap.wf d m = true) : SMap.wf d (SMap.set d m k v) = true := by
  unfold SMap.set
  split
  · exact SMap.wf_drop d _ m hm
  · rename_i h; exact SMap.wfFrom_insert d m 0 k v (Nat.zero_le _) h hm

end Sys2Proof.Machine
end

