-- ==== Sys2Proof/Laws/Fields.lean ====
section
/-!
SUPPORT. Bit fields of a word: what a field reads as after a write of the same field, of another one, and bit by bit.
-/
namespace Sys2Proof.Machine

/-- Bit i of a word after a write of field [lo + n − 1 : lo]. -/
theorem bitAt_withField (w : Word) (lo n v i : Nat) (hi : i < 36) :
    bitAt (withField w lo n v) i = if lo ≤ i ∧ i < lo + n then v.testBit (i - lo) else bitAt w i := by
  unfold bitAt withField
  simp only [BitVec.getLsbD_or, BitVec.getLsbD_and, BitVec.getLsbD_not, BitVec.getLsbD_ofNat, Nat.testBit_shiftLeft,
    Nat.testBit_two_pow_sub_one, Nat.testBit_mod_two_pow, hi, decide_true, Bool.true_and, ge_iff_le]
  by_cases h1 : lo ≤ i
  · by_cases h2 : i < lo + n
    · have : i - lo < n := by omega
      simp [h1, h2, this]
    · have : ¬ i - lo < n := by omega
      simp [h1, h2, this]
  · simp [h1]

/-- Bit i of a field. -/
theorem testBit_fieldOf (w : Word) (lo n i : Nat) : (fieldOf w lo n).testBit i = (decide (i < n) && bitAt w (lo + i)) := by
  unfold fieldOf bitAt
  rw [Nat.testBit_mod_two_pow, Nat.testBit_shiftRight]
  rfl

theorem fieldOf_lt (w : Word) (lo n : Nat) : fieldOf w lo n < 2 ^ n := Nat.mod_lt _ (Nat.two_pow_pos n)

/-- A field reads as written. -/
theorem fieldOf_withField_self (w : Word) (lo n v : Nat) (h : lo + n ≤ 36) : fieldOf (withField w lo n v) lo n = v % 2 ^ n := by
  apply Nat.eq_of_testBit_eq
  intro i
  rw [testBit_fieldOf, Nat.testBit_mod_two_pow]
  by_cases hi : i < n
  · rw [bitAt_withField _ _ _ _ _ (by omega)]
    simp [hi]
  · simp [hi]

/-- A write of another field leaves a field as it was. -/
theorem fieldOf_withField_other (w : Word) (lo n v lo' n' : Nat) (h : lo' + n' ≤ lo ∨ lo + n ≤ lo') (h' : lo' + n' ≤ 36) :
    fieldOf (withField w lo n v) lo' n' = fieldOf w lo' n' := by
  apply Nat.eq_of_testBit_eq
  intro i
  rw [testBit_fieldOf, testBit_fieldOf]
  by_cases hi : i < n'
  · rw [bitAt_withField _ _ _ _ _ (by omega), if_neg (by omega)]
  · simp [hi]

/-- One bit as a field. -/
theorem bitAt_withField_self (w : Word) (b : Nat) (v : Bool) (h : b < 36) : bitAt (withField w b 1 v.toNat) b = v := by
  rw [bitAt_withField _ _ _ _ _ h]
  cases v <;> simp

theorem bitAt_withField_other (w : Word) (lo n v b : Nat) (h : b < lo ∨ lo + n ≤ b) : bitAt (withField w lo n v) b = bitAt w b := by
  by_cases hb : b < 36
  · rw [bitAt_withField _ _ _ _ _ hb, if_neg (by omega)]
  · simp only [bitAt]
    rw [BitVec.getLsbD_of_ge _ _ (by omega), BitVec.getLsbD_of_ge _ _ (by omega)]

/-- Words with equal bits are equal. -/
theorem word_ext (a b : Word) (h : ∀ i < 36, bitAt a i = bitAt b i) : a = b := BitVec.eq_of_getLsbD_eq h

end Sys2Proof.Machine
end

