-- ==== Sys2Proof/Laws/State.lean ====
section
/-!
SUPPORT. What each named update of the device leaves as it was, field by field, and what a register, a field, a core register or a
memory byte reads as after a write. Later proofs cite these and unfold no update.
-/
namespace Sys2Proof.Machine

variable (c : Chip)

/-! #### setReg: everything but regs -/
@[simp] theorem Chip.setReg_arr (p s : Nat) (v : Word) : (c.setReg p s v).arr = c.arr := rfl
@[simp] theorem Chip.setReg_cpu (p s : Nat) (v : Word) : (c.setReg p s v).cpu = c.cpu := rfl
@[simp] theorem Chip.setReg_mem (p s : Nat) (v : Word) : (c.setReg p s v).mem = c.mem := rfl
@[simp] theorem Chip.setReg_ctu (p s : Nat) (v : Word) : (c.setReg p s v).ctu = c.ctu := rfl
@[simp] theorem Chip.setReg_evh (p s : Nat) (v : Word) : (c.setReg p s v).evh = c.evh := rfl
@[simp] theorem Chip.setReg_hst (p s : Nat) (v : Word) : (c.setReg p s v).hst = c.hst := rfl
@[simp] theorem Chip.setReg_ring (p s : Nat) (v : Word) : (c.setReg p s v).ring = c.ring := rfl
@[simp] theorem Chip.setReg_fab (p s : Nat) (v : Word) : (c.setReg p s v).fab = c.fab := rfl
@[simp] theorem Chip.setReg_col (p s : Nat) (v : Word) : (c.setReg p s v).col = c.col := rfl
@[simp] theorem Chip.setReg_dbg (p s : Nat) (v : Word) : (c.setReg p s v).dbg = c.dbg := rfl
@[simp] theorem Chip.setReg_pwr (p s : Nat) (v : Word) : (c.setReg p s v).pwr = c.pwr := rfl
@[simp] theorem Chip.setReg_pins (p s : Nat) (v : Word) : (c.setReg p s v).pins = c.pins := rfl
@[simp] theorem Chip.setReg_sec (p s : Nat) (v : Word) : (c.setReg p s v).sec = c.sec := rfl
@[simp] theorem Chip.setReg_tally (p s : Nat) (v : Word) : (c.setReg p s v).tally = c.tally := rfl
@[simp] theorem Chip.setReg_tallyCap (p s : Nat) (v : Word) : (c.setReg p s v).tallyCap = c.tallyCap := rfl
@[simp] theorem Chip.setReg_evls (p s : Nat) (v : Word) : (c.setReg p s v).evls = c.evls := rfl
@[simp] theorem Chip.setReg_out (p s : Nat) (v : Word) : (c.setReg p s v).out = c.out := rfl
@[simp] theorem Chip.setReg_free (p s : Nat) (v : Word) : (c.setReg p s v).free = c.free := rfl

/-! #### setFld: everything but regs -/
@[simp] theorem Chip.setFld_arr (p s lo n v : Nat) : (c.setFld p s lo n v).arr = c.arr := rfl
@[simp] theorem Chip.setFld_cpu (p s lo n v : Nat) : (c.setFld p s lo n v).cpu = c.cpu := rfl
@[simp] theorem Chip.setFld_mem (p s lo n v : Nat) : (c.setFld p s lo n v).mem = c.mem := rfl
@[simp] theorem Chip.setFld_ctu (p s lo n v : Nat) : (c.setFld p s lo n v).ctu = c.ctu := rfl
@[simp] theorem Chip.setFld_evh (p s lo n v : Nat) : (c.setFld p s lo n v).evh = c.evh := rfl
@[simp] theorem Chip.setFld_hst (p s lo n v : Nat) : (c.setFld p s lo n v).hst = c.hst := rfl
@[simp] theorem Chip.setFld_ring (p s lo n v : Nat) : (c.setFld p s lo n v).ring = c.ring := rfl
@[simp] theorem Chip.setFld_fab (p s lo n v : Nat) : (c.setFld p s lo n v).fab = c.fab := rfl
@[simp] theorem Chip.setFld_col (p s lo n v : Nat) : (c.setFld p s lo n v).col = c.col := rfl
@[simp] theorem Chip.setFld_dbg (p s lo n v : Nat) : (c.setFld p s lo n v).dbg = c.dbg := rfl
@[simp] theorem Chip.setFld_pwr (p s lo n v : Nat) : (c.setFld p s lo n v).pwr = c.pwr := rfl
@[simp] theorem Chip.setFld_pins (p s lo n v : Nat) : (c.setFld p s lo n v).pins = c.pins := rfl
@[simp] theorem Chip.setFld_sec (p s lo n v : Nat) : (c.setFld p s lo n v).sec = c.sec := rfl
@[simp] theorem Chip.setFld_tally (p s lo n v : Nat) : (c.setFld p s lo n v).tally = c.tally := rfl
@[simp] theorem Chip.setFld_tallyCap (p s lo n v : Nat) : (c.setFld p s lo n v).tallyCap = c.tallyCap := rfl
@[simp] theorem Chip.setFld_evls (p s lo n v : Nat) : (c.setFld p s lo n v).evls = c.evls := rfl
@[simp] theorem Chip.setFld_out (p s lo n v : Nat) : (c.setFld p s lo n v).out = c.out := rfl
@[simp] theorem Chip.setFld_free (p s lo n v : Nat) : (c.setFld p s lo n v).free = c.free := rfl

/-! #### setFlag: everything but regs -/
@[simp] theorem Chip.setFlag_arr (p s b : Nat) (v : Bool) : (c.setFlag p s b v).arr = c.arr := rfl
@[simp] theorem Chip.setFlag_cpu (p s b : Nat) (v : Bool) : (c.setFlag p s b v).cpu = c.cpu := rfl
@[simp] theorem Chip.setFlag_mem (p s b : Nat) (v : Bool) : (c.setFlag p s b v).mem = c.mem := rfl
@[simp] theorem Chip.setFlag_ctu (p s b : Nat) (v : Bool) : (c.setFlag p s b v).ctu = c.ctu := rfl
@[simp] theorem Chip.setFlag_evh (p s b : Nat) (v : Bool) : (c.setFlag p s b v).evh = c.evh := rfl
@[simp] theorem Chip.setFlag_hst (p s b : Nat) (v : Bool) : (c.setFlag p s b v).hst = c.hst := rfl
@[simp] theorem Chip.setFlag_ring (p s b : Nat) (v : Bool) : (c.setFlag p s b v).ring = c.ring := rfl
@[simp] theorem Chip.setFlag_fab (p s b : Nat) (v : Bool) : (c.setFlag p s b v).fab = c.fab := rfl
@[simp] theorem Chip.setFlag_col (p s b : Nat) (v : Bool) : (c.setFlag p s b v).col = c.col := rfl
@[simp] theorem Chip.setFlag_dbg (p s b : Nat) (v : Bool) : (c.setFlag p s b v).dbg = c.dbg := rfl
@[simp] theorem Chip.setFlag_pwr (p s b : Nat) (v : Bool) : (c.setFlag p s b v).pwr = c.pwr := rfl
@[simp] theorem Chip.setFlag_pins (p s b : Nat) (v : Bool) : (c.setFlag p s b v).pins = c.pins := rfl
@[simp] theorem Chip.setFlag_sec (p s b : Nat) (v : Bool) : (c.setFlag p s b v).sec = c.sec := rfl
@[simp] theorem Chip.setFlag_tally (p s b : Nat) (v : Bool) : (c.setFlag p s b v).tally = c.tally := rfl
@[simp] theorem Chip.setFlag_tallyCap (p s b : Nat) (v : Bool) : (c.setFlag p s b v).tallyCap = c.tallyCap := rfl
@[simp] theorem Chip.setFlag_evls (p s b : Nat) (v : Bool) : (c.setFlag p s b v).evls = c.evls := rfl
@[simp] theorem Chip.setFlag_out (p s b : Nat) (v : Bool) : (c.setFlag p s b v).out = c.out := rfl
@[simp] theorem Chip.setFlag_free (p s b : Nat) (v : Bool) : (c.setFlag p s b v).free = c.free := rfl

/-! #### satAdd: everything but regs -/
@[simp] theorem Chip.satAdd_arr (p s lo n a : Nat) : (c.satAdd p s lo n a).arr = c.arr := rfl
@[simp] theorem Chip.satAdd_cpu (p s lo n a : Nat) : (c.satAdd p s lo n a).cpu = c.cpu := rfl
@[simp] theorem Chip.satAdd_mem (p s lo n a : Nat) : (c.satAdd p s lo n a).mem = c.mem := rfl
@[simp] theorem Chip.satAdd_ctu (p s lo n a : Nat) : (c.satAdd p s lo n a).ctu = c.ctu := rfl
@[simp] theorem Chip.satAdd_evh (p s lo n a : Nat) : (c.satAdd p s lo n a).evh = c.evh := rfl
@[simp] theorem Chip.satAdd_hst (p s lo n a : Nat) : (c.satAdd p s lo n a).hst = c.hst := rfl
@[simp] theorem Chip.satAdd_ring (p s lo n a : Nat) : (c.satAdd p s lo n a).ring = c.ring := rfl
@[simp] theorem Chip.satAdd_fab (p s lo n a : Nat) : (c.satAdd p s lo n a).fab = c.fab := rfl
@[simp] theorem Chip.satAdd_col (p s lo n a : Nat) : (c.satAdd p s lo n a).col = c.col := rfl
@[simp] theorem Chip.satAdd_dbg (p s lo n a : Nat) : (c.satAdd p s lo n a).dbg = c.dbg := rfl
@[simp] theorem Chip.satAdd_pwr (p s lo n a : Nat) : (c.satAdd p s lo n a).pwr = c.pwr := rfl
@[simp] theorem Chip.satAdd_pins (p s lo n a : Nat) : (c.satAdd p s lo n a).pins = c.pins := rfl
@[simp] theorem Chip.satAdd_sec (p s lo n a : Nat) : (c.satAdd p s lo n a).sec = c.sec := rfl
@[simp] theorem Chip.satAdd_tally (p s lo n a : Nat) : (c.satAdd p s lo n a).tally = c.tally := rfl
@[simp] theorem Chip.satAdd_tallyCap (p s lo n a : Nat) : (c.satAdd p s lo n a).tallyCap = c.tallyCap := rfl
@[simp] theorem Chip.satAdd_evls (p s lo n a : Nat) : (c.satAdd p s lo n a).evls = c.evls := rfl
@[simp] theorem Chip.satAdd_out (p s lo n a : Nat) : (c.satAdd p s lo n a).out = c.out := rfl
@[simp] theorem Chip.satAdd_free (p s lo n a : Nat) : (c.satAdd p s lo n a).free = c.free := rfl

/-! #### count: everything but regs -/
@[simp] theorem Chip.count_arr (p s a : Nat) : (c.count p s a).arr = c.arr := rfl
@[simp] theorem Chip.count_cpu (p s a : Nat) : (c.count p s a).cpu = c.cpu := rfl
@[simp] theorem Chip.count_mem (p s a : Nat) : (c.count p s a).mem = c.mem := rfl
@[simp] theorem Chip.count_ctu (p s a : Nat) : (c.count p s a).ctu = c.ctu := rfl
@[simp] theorem Chip.count_evh (p s a : Nat) : (c.count p s a).evh = c.evh := rfl
@[simp] theorem Chip.count_hst (p s a : Nat) : (c.count p s a).hst = c.hst := rfl
@[simp] theorem Chip.count_ring (p s a : Nat) : (c.count p s a).ring = c.ring := rfl
@[simp] theorem Chip.count_fab (p s a : Nat) : (c.count p s a).fab = c.fab := rfl
@[simp] theorem Chip.count_col (p s a : Nat) : (c.count p s a).col = c.col := rfl
@[simp] theorem Chip.count_dbg (p s a : Nat) : (c.count p s a).dbg = c.dbg := rfl
@[simp] theorem Chip.count_pwr (p s a : Nat) : (c.count p s a).pwr = c.pwr := rfl
@[simp] theorem Chip.count_pins (p s a : Nat) : (c.count p s a).pins = c.pins := rfl
@[simp] theorem Chip.count_sec (p s a : Nat) : (c.count p s a).sec = c.sec := rfl
@[simp] theorem Chip.count_tally (p s a : Nat) : (c.count p s a).tally = c.tally := rfl
@[simp] theorem Chip.count_tallyCap (p s a : Nat) : (c.count p s a).tallyCap = c.tallyCap := rfl
@[simp] theorem Chip.count_evls (p s a : Nat) : (c.count p s a).evls = c.evls := rfl
@[simp] theorem Chip.count_out (p s a : Nat) : (c.count p s a).out = c.out := rfl
@[simp] theorem Chip.count_free (p s a : Nat) : (c.count p s a).free = c.free := rfl

/-! #### resetPages: everything but regs -/
@[simp] theorem Chip.resetPages_arr (q : Nat → Bool) : (c.resetPages q).arr = c.arr := rfl
@[simp] theorem Chip.resetPages_cpu (q : Nat → Bool) : (c.resetPages q).cpu = c.cpu := rfl
@[simp] theorem Chip.resetPages_mem (q : Nat → Bool) : (c.resetPages q).mem = c.mem := rfl
@[simp] theorem Chip.resetPages_ctu (q : Nat → Bool) : (c.resetPages q).ctu = c.ctu := rfl
@[simp] theorem Chip.resetPages_evh (q : Nat → Bool) : (c.resetPages q).evh = c.evh := rfl
@[simp] theorem Chip.resetPages_hst (q : Nat → Bool) : (c.resetPages q).hst = c.hst := rfl
@[simp] theorem Chip.resetPages_ring (q : Nat → Bool) : (c.resetPages q).ring = c.ring := rfl
@[simp] theorem Chip.resetPages_fab (q : Nat → Bool) : (c.resetPages q).fab = c.fab := rfl
@[simp] theorem Chip.resetPages_col (q : Nat → Bool) : (c.resetPages q).col = c.col := rfl
@[simp] theorem Chip.resetPages_dbg (q : Nat → Bool) : (c.resetPages q).dbg = c.dbg := rfl
@[simp] theorem Chip.resetPages_pwr (q : Nat → Bool) : (c.resetPages q).pwr = c.pwr := rfl
@[simp] theorem Chip.resetPages_pins (q : Nat → Bool) : (c.resetPages q).pins = c.pins := rfl
@[simp] theorem Chip.resetPages_sec (q : Nat → Bool) : (c.resetPages q).sec = c.sec := rfl
@[simp] theorem Chip.resetPages_tally (q : Nat → Bool) : (c.resetPages q).tally = c.tally := rfl
@[simp] theorem Chip.resetPages_tallyCap (q : Nat → Bool) : (c.resetPages q).tallyCap = c.tallyCap := rfl
@[simp] theorem Chip.resetPages_evls (q : Nat → Bool) : (c.resetPages q).evls = c.evls := rfl
@[simp] theorem Chip.resetPages_out (q : Nat → Bool) : (c.resetPages q).out = c.out := rfl
@[simp] theorem Chip.resetPages_free (q : Nat → Bool) : (c.resetPages q).free = c.free := rfl

/-! #### setMode: everything but regs -/
@[simp] theorem Chip.setMode_arr (m : Nat) : (c.setMode m).arr = c.arr := rfl
@[simp] theorem Chip.setMode_cpu (m : Nat) : (c.setMode m).cpu = c.cpu := rfl
@[simp] theorem Chip.setMode_mem (m : Nat) : (c.setMode m).mem = c.mem := rfl
@[simp] theorem Chip.setMode_ctu (m : Nat) : (c.setMode m).ctu = c.ctu := rfl
@[simp] theorem Chip.setMode_evh (m : Nat) : (c.setMode m).evh = c.evh := rfl
@[simp] theorem Chip.setMode_hst (m : Nat) : (c.setMode m).hst = c.hst := rfl
@[simp] theorem Chip.setMode_ring (m : Nat) : (c.setMode m).ring = c.ring := rfl
@[simp] theorem Chip.setMode_fab (m : Nat) : (c.setMode m).fab = c.fab := rfl
@[simp] theorem Chip.setMode_col (m : Nat) : (c.setMode m).col = c.col := rfl
@[simp] theorem Chip.setMode_dbg (m : Nat) : (c.setMode m).dbg = c.dbg := rfl
@[simp] theorem Chip.setMode_pwr (m : Nat) : (c.setMode m).pwr = c.pwr := rfl
@[simp] theorem Chip.setMode_pins (m : Nat) : (c.setMode m).pins = c.pins := rfl
@[simp] theorem Chip.setMode_sec (m : Nat) : (c.setMode m).sec = c.sec := rfl
@[simp] theorem Chip.setMode_tally (m : Nat) : (c.setMode m).tally = c.tally := rfl
@[simp] theorem Chip.setMode_tallyCap (m : Nat) : (c.setMode m).tallyCap = c.tallyCap := rfl
@[simp] theorem Chip.setMode_evls (m : Nat) : (c.setMode m).evls = c.evls := rfl
@[simp] theorem Chip.setMode_out (m : Nat) : (c.setMode m).out = c.out := rfl
@[simp] theorem Chip.setMode_free (m : Nat) : (c.setMode m).free = c.free := rfl

/-! #### setSr: everything but cpu -/
@[simp] theorem Chip.setSr_regs (k i : Nat) (v : Word) : (c.setSr k i v).regs = c.regs := rfl
@[simp] theorem Chip.setSr_arr (k i : Nat) (v : Word) : (c.setSr k i v).arr = c.arr := rfl
@[simp] theorem Chip.setSr_mem (k i : Nat) (v : Word) : (c.setSr k i v).mem = c.mem := rfl
@[simp] theorem Chip.setSr_ctu (k i : Nat) (v : Word) : (c.setSr k i v).ctu = c.ctu := rfl
@[simp] theorem Chip.setSr_evh (k i : Nat) (v : Word) : (c.setSr k i v).evh = c.evh := rfl
@[simp] theorem Chip.setSr_hst (k i : Nat) (v : Word) : (c.setSr k i v).hst = c.hst := rfl
@[simp] theorem Chip.setSr_ring (k i : Nat) (v : Word) : (c.setSr k i v).ring = c.ring := rfl
@[simp] theorem Chip.setSr_fab (k i : Nat) (v : Word) : (c.setSr k i v).fab = c.fab := rfl
@[simp] theorem Chip.setSr_col (k i : Nat) (v : Word) : (c.setSr k i v).col = c.col := rfl
@[simp] theorem Chip.setSr_dbg (k i : Nat) (v : Word) : (c.setSr k i v).dbg = c.dbg := rfl
@[simp] theorem Chip.setSr_pwr (k i : Nat) (v : Word) : (c.setSr k i v).pwr = c.pwr := rfl
@[simp] theorem Chip.setSr_pins (k i : Nat) (v : Word) : (c.setSr k i v).pins = c.pins := rfl
@[simp] theorem Chip.setSr_sec (k i : Nat) (v : Word) : (c.setSr k i v).sec = c.sec := rfl
@[simp] theorem Chip.setSr_tally (k i : Nat) (v : Word) : (c.setSr k i v).tally = c.tally := rfl
@[simp] theorem Chip.setSr_tallyCap (k i : Nat) (v : Word) : (c.setSr k i v).tallyCap = c.tallyCap := rfl
@[simp] theorem Chip.setSr_evls (k i : Nat) (v : Word) : (c.setSr k i v).evls = c.evls := rfl
@[simp] theorem Chip.setSr_out (k i : Nat) (v : Word) : (c.setSr k i v).out = c.out := rfl
@[simp] theorem Chip.setSr_free (k i : Nat) (v : Word) : (c.setSr k i v).free = c.free := rfl

/-! #### setCore: everything but cpu -/
@[simp] theorem Chip.setCore_regs (k : Nat) (x : Core) : (c.setCore k x).regs = c.regs := rfl
@[simp] theorem Chip.setCore_arr (k : Nat) (x : Core) : (c.setCore k x).arr = c.arr := rfl
@[simp] theorem Chip.setCore_mem (k : Nat) (x : Core) : (c.setCore k x).mem = c.mem := rfl
@[simp] theorem Chip.setCore_ctu (k : Nat) (x : Core) : (c.setCore k x).ctu = c.ctu := rfl
@[simp] theorem Chip.setCore_evh (k : Nat) (x : Core) : (c.setCore k x).evh = c.evh := rfl
@[simp] theorem Chip.setCore_hst (k : Nat) (x : Core) : (c.setCore k x).hst = c.hst := rfl
@[simp] theorem Chip.setCore_ring (k : Nat) (x : Core) : (c.setCore k x).ring = c.ring := rfl
@[simp] theorem Chip.setCore_fab (k : Nat) (x : Core) : (c.setCore k x).fab = c.fab := rfl
@[simp] theorem Chip.setCore_col (k : Nat) (x : Core) : (c.setCore k x).col = c.col := rfl
@[simp] theorem Chip.setCore_dbg (k : Nat) (x : Core) : (c.setCore k x).dbg = c.dbg := rfl
@[simp] theorem Chip.setCore_pwr (k : Nat) (x : Core) : (c.setCore k x).pwr = c.pwr := rfl
@[simp] theorem Chip.setCore_pins (k : Nat) (x : Core) : (c.setCore k x).pins = c.pins := rfl
@[simp] theorem Chip.setCore_sec (k : Nat) (x : Core) : (c.setCore k x).sec = c.sec := rfl
@[simp] theorem Chip.setCore_tally (k : Nat) (x : Core) : (c.setCore k x).tally = c.tally := rfl
@[simp] theorem Chip.setCore_tallyCap (k : Nat) (x : Core) : (c.setCore k x).tallyCap = c.tallyCap := rfl
@[simp] theorem Chip.setCore_evls (k : Nat) (x : Core) : (c.setCore k x).evls = c.evls := rfl
@[simp] theorem Chip.setCore_out (k : Nat) (x : Core) : (c.setCore k x).out = c.out := rfl
@[simp] theorem Chip.setCore_free (k : Nat) (x : Core) : (c.setCore k x).free = c.free := rfl

/-! #### setPc: everything but cpu -/
@[simp] theorem Chip.setPc_regs (k : Nat) (v : Word) : (c.setPc k v).regs = c.regs := rfl
@[simp] theorem Chip.setPc_arr (k : Nat) (v : Word) : (c.setPc k v).arr = c.arr := rfl
@[simp] theorem Chip.setPc_mem (k : Nat) (v : Word) : (c.setPc k v).mem = c.mem := rfl
@[simp] theorem Chip.setPc_ctu (k : Nat) (v : Word) : (c.setPc k v).ctu = c.ctu := rfl
@[simp] theorem Chip.setPc_evh (k : Nat) (v : Word) : (c.setPc k v).evh = c.evh := rfl
@[simp] theorem Chip.setPc_hst (k : Nat) (v : Word) : (c.setPc k v).hst = c.hst := rfl
@[simp] theorem Chip.setPc_ring (k : Nat) (v : Word) : (c.setPc k v).ring = c.ring := rfl
@[simp] theorem Chip.setPc_fab (k : Nat) (v : Word) : (c.setPc k v).fab = c.fab := rfl
@[simp] theorem Chip.setPc_col (k : Nat) (v : Word) : (c.setPc k v).col = c.col := rfl
@[simp] theorem Chip.setPc_dbg (k : Nat) (v : Word) : (c.setPc k v).dbg = c.dbg := rfl
@[simp] theorem Chip.setPc_pwr (k : Nat) (v : Word) : (c.setPc k v).pwr = c.pwr := rfl
@[simp] theorem Chip.setPc_pins (k : Nat) (v : Word) : (c.setPc k v).pins = c.pins := rfl
@[simp] theorem Chip.setPc_sec (k : Nat) (v : Word) : (c.setPc k v).sec = c.sec := rfl
@[simp] theorem Chip.setPc_tally (k : Nat) (v : Word) : (c.setPc k v).tally = c.tally := rfl
@[simp] theorem Chip.setPc_tallyCap (k : Nat) (v : Word) : (c.setPc k v).tallyCap = c.tallyCap := rfl
@[simp] theorem Chip.setPc_evls (k : Nat) (v : Word) : (c.setPc k v).evls = c.evls := rfl
@[simp] theorem Chip.setPc_out (k : Nat) (v : Word) : (c.setPc k v).out = c.out := rfl
@[simp] theorem Chip.setPc_free (k : Nat) (v : Word) : (c.setPc k v).free = c.free := rfl

/-! #### setPsw: everything but cpu -/
@[simp] theorem Chip.setPsw_regs (k b : Nat) (v : Bool) : (c.setPsw k b v).regs = c.regs := rfl
@[simp] theorem Chip.setPsw_arr (k b : Nat) (v : Bool) : (c.setPsw k b v).arr = c.arr := rfl
@[simp] theorem Chip.setPsw_mem (k b : Nat) (v : Bool) : (c.setPsw k b v).mem = c.mem := rfl
@[simp] theorem Chip.setPsw_ctu (k b : Nat) (v : Bool) : (c.setPsw k b v).ctu = c.ctu := rfl
@[simp] theorem Chip.setPsw_evh (k b : Nat) (v : Bool) : (c.setPsw k b v).evh = c.evh := rfl
@[simp] theorem Chip.setPsw_hst (k b : Nat) (v : Bool) : (c.setPsw k b v).hst = c.hst := rfl
@[simp] theorem Chip.setPsw_ring (k b : Nat) (v : Bool) : (c.setPsw k b v).ring = c.ring := rfl
@[simp] theorem Chip.setPsw_fab (k b : Nat) (v : Bool) : (c.setPsw k b v).fab = c.fab := rfl
@[simp] theorem Chip.setPsw_col (k b : Nat) (v : Bool) : (c.setPsw k b v).col = c.col := rfl
@[simp] theorem Chip.setPsw_dbg (k b : Nat) (v : Bool) : (c.setPsw k b v).dbg = c.dbg := rfl
@[simp] theorem Chip.setPsw_pwr (k b : Nat) (v : Bool) : (c.setPsw k b v).pwr = c.pwr := rfl
@[simp] theorem Chip.setPsw_pins (k b : Nat) (v : Bool) : (c.setPsw k b v).pins = c.pins := rfl
@[simp] theorem Chip.setPsw_sec (k b : Nat) (v : Bool) : (c.setPsw k b v).sec = c.sec := rfl
@[simp] theorem Chip.setPsw_tally (k b : Nat) (v : Bool) : (c.setPsw k b v).tally = c.tally := rfl
@[simp] theorem Chip.setPsw_tallyCap (k b : Nat) (v : Bool) : (c.setPsw k b v).tallyCap = c.tallyCap := rfl
@[simp] theorem Chip.setPsw_evls (k b : Nat) (v : Bool) : (c.setPsw k b v).evls = c.evls := rfl
@[simp] theorem Chip.setPsw_out (k b : Nat) (v : Bool) : (c.setPsw k b v).out = c.out := rfl
@[simp] theorem Chip.setPsw_free (k b : Nat) (v : Bool) : (c.setPsw k b v).free = c.free := rfl

/-! #### setCV: everything but cpu -/
@[simp] theorem Chip.setCV_regs (k : Nat) (cy v : Bool) : (c.setCV k cy v).regs = c.regs := rfl
@[simp] theorem Chip.setCV_arr (k : Nat) (cy v : Bool) : (c.setCV k cy v).arr = c.arr := rfl
@[simp] theorem Chip.setCV_mem (k : Nat) (cy v : Bool) : (c.setCV k cy v).mem = c.mem := rfl
@[simp] theorem Chip.setCV_ctu (k : Nat) (cy v : Bool) : (c.setCV k cy v).ctu = c.ctu := rfl
@[simp] theorem Chip.setCV_evh (k : Nat) (cy v : Bool) : (c.setCV k cy v).evh = c.evh := rfl
@[simp] theorem Chip.setCV_hst (k : Nat) (cy v : Bool) : (c.setCV k cy v).hst = c.hst := rfl
@[simp] theorem Chip.setCV_ring (k : Nat) (cy v : Bool) : (c.setCV k cy v).ring = c.ring := rfl
@[simp] theorem Chip.setCV_fab (k : Nat) (cy v : Bool) : (c.setCV k cy v).fab = c.fab := rfl
@[simp] theorem Chip.setCV_col (k : Nat) (cy v : Bool) : (c.setCV k cy v).col = c.col := rfl
@[simp] theorem Chip.setCV_dbg (k : Nat) (cy v : Bool) : (c.setCV k cy v).dbg = c.dbg := rfl
@[simp] theorem Chip.setCV_pwr (k : Nat) (cy v : Bool) : (c.setCV k cy v).pwr = c.pwr := rfl
@[simp] theorem Chip.setCV_pins (k : Nat) (cy v : Bool) : (c.setCV k cy v).pins = c.pins := rfl
@[simp] theorem Chip.setCV_sec (k : Nat) (cy v : Bool) : (c.setCV k cy v).sec = c.sec := rfl
@[simp] theorem Chip.setCV_tally (k : Nat) (cy v : Bool) : (c.setCV k cy v).tally = c.tally := rfl
@[simp] theorem Chip.setCV_tallyCap (k : Nat) (cy v : Bool) : (c.setCV k cy v).tallyCap = c.tallyCap := rfl
@[simp] theorem Chip.setCV_evls (k : Nat) (cy v : Bool) : (c.setCV k cy v).evls = c.evls := rfl
@[simp] theorem Chip.setCV_out (k : Nat) (cy v : Bool) : (c.setCV k cy v).out = c.out := rfl
@[simp] theorem Chip.setCV_free (k : Nat) (cy v : Bool) : (c.setCV k cy v).free = c.free := rfl

/-! #### orFpsw: everything but cpu -/
@[simp] theorem Chip.orFpsw_regs (k : Nat) (fl : FFlags) : (c.orFpsw k fl).regs = c.regs := rfl
@[simp] theorem Chip.orFpsw_arr (k : Nat) (fl : FFlags) : (c.orFpsw k fl).arr = c.arr := rfl
@[simp] theorem Chip.orFpsw_mem (k : Nat) (fl : FFlags) : (c.orFpsw k fl).mem = c.mem := rfl
@[simp] theorem Chip.orFpsw_ctu (k : Nat) (fl : FFlags) : (c.orFpsw k fl).ctu = c.ctu := rfl
@[simp] theorem Chip.orFpsw_evh (k : Nat) (fl : FFlags) : (c.orFpsw k fl).evh = c.evh := rfl
@[simp] theorem Chip.orFpsw_hst (k : Nat) (fl : FFlags) : (c.orFpsw k fl).hst = c.hst := rfl
@[simp] theorem Chip.orFpsw_ring (k : Nat) (fl : FFlags) : (c.orFpsw k fl).ring = c.ring := rfl
@[simp] theorem Chip.orFpsw_fab (k : Nat) (fl : FFlags) : (c.orFpsw k fl).fab = c.fab := rfl
@[simp] theorem Chip.orFpsw_col (k : Nat) (fl : FFlags) : (c.orFpsw k fl).col = c.col := rfl
@[simp] theorem Chip.orFpsw_dbg (k : Nat) (fl : FFlags) : (c.orFpsw k fl).dbg = c.dbg := rfl
@[simp] theorem Chip.orFpsw_pwr (k : Nat) (fl : FFlags) : (c.orFpsw k fl).pwr = c.pwr := rfl
@[simp] theorem Chip.orFpsw_pins (k : Nat) (fl : FFlags) : (c.orFpsw k fl).pins = c.pins := rfl
@[simp] theorem Chip.orFpsw_sec (k : Nat) (fl : FFlags) : (c.orFpsw k fl).sec = c.sec := rfl
@[simp] theorem Chip.orFpsw_tally (k : Nat) (fl : FFlags) : (c.orFpsw k fl).tally = c.tally := rfl
@[simp] theorem Chip.orFpsw_tallyCap (k : Nat) (fl : FFlags) : (c.orFpsw k fl).tallyCap = c.tallyCap := rfl
@[simp] theorem Chip.orFpsw_evls (k : Nat) (fl : FFlags) : (c.orFpsw k fl).evls = c.evls := rfl
@[simp] theorem Chip.orFpsw_out (k : Nat) (fl : FFlags) : (c.orFpsw k fl).out = c.out := rfl
@[simp] theorem Chip.orFpsw_free (k : Nat) (fl : FFlags) : (c.orFpsw k fl).free = c.free := rfl

/-! #### dropResv: everything but cpu -/
@[simp] theorem Chip.dropResv_regs (k : Nat) : (c.dropResv k).regs = c.regs := rfl
@[simp] theorem Chip.dropResv_arr (k : Nat) : (c.dropResv k).arr = c.arr := rfl
@[simp] theorem Chip.dropResv_mem (k : Nat) : (c.dropResv k).mem = c.mem := rfl
@[simp] theorem Chip.dropResv_ctu (k : Nat) : (c.dropResv k).ctu = c.ctu := rfl
@[simp] theorem Chip.dropResv_evh (k : Nat) : (c.dropResv k).evh = c.evh := rfl
@[simp] theorem Chip.dropResv_hst (k : Nat) : (c.dropResv k).hst = c.hst := rfl
@[simp] theorem Chip.dropResv_ring (k : Nat) : (c.dropResv k).ring = c.ring := rfl
@[simp] theorem Chip.dropResv_fab (k : Nat) : (c.dropResv k).fab = c.fab := rfl
@[simp] theorem Chip.dropResv_col (k : Nat) : (c.dropResv k).col = c.col := rfl
@[simp] theorem Chip.dropResv_dbg (k : Nat) : (c.dropResv k).dbg = c.dbg := rfl
@[simp] theorem Chip.dropResv_pwr (k : Nat) : (c.dropResv k).pwr = c.pwr := rfl
@[simp] theorem Chip.dropResv_pins (k : Nat) : (c.dropResv k).pins = c.pins := rfl
@[simp] theorem Chip.dropResv_sec (k : Nat) : (c.dropResv k).sec = c.sec := rfl
@[simp] theorem Chip.dropResv_tally (k : Nat) : (c.dropResv k).tally = c.tally := rfl
@[simp] theorem Chip.dropResv_tallyCap (k : Nat) : (c.dropResv k).tallyCap = c.tallyCap := rfl
@[simp] theorem Chip.dropResv_evls (k : Nat) : (c.dropResv k).evls = c.evls := rfl
@[simp] theorem Chip.dropResv_out (k : Nat) : (c.dropResv k).out = c.out := rfl
@[simp] theorem Chip.dropResv_free (k : Nat) : (c.dropResv k).free = c.free := rfl

/-! #### setW: everything but cpu -/
@[simp] theorem Chip.setW_regs (k : Nat) (r : BitVec 5) (v : Word) : (c.setW k r v).regs = c.regs := by unfold Chip.setW; split <;> rfl
@[simp] theorem Chip.setW_arr (k : Nat) (r : BitVec 5) (v : Word) : (c.setW k r v).arr = c.arr := by unfold Chip.setW; split <;> rfl
@[simp] theorem Chip.setW_mem (k : Nat) (r : BitVec 5) (v : Word) : (c.setW k r v).mem = c.mem := by unfold Chip.setW; split <;> rfl
@[simp] theorem Chip.setW_ctu (k : Nat) (r : BitVec 5) (v : Word) : (c.setW k r v).ctu = c.ctu := by unfold Chip.setW; split <;> rfl
@[simp] theorem Chip.setW_evh (k : Nat) (r : BitVec 5) (v : Word) : (c.setW k r v).evh = c.evh := by unfold Chip.setW; split <;> rfl
@[simp] theorem Chip.setW_hst (k : Nat) (r : BitVec 5) (v : Word) : (c.setW k r v).hst = c.hst := by unfold Chip.setW; split <;> rfl
@[simp] theorem Chip.setW_ring (k : Nat) (r : BitVec 5) (v : Word) : (c.setW k r v).ring = c.ring := by unfold Chip.setW; split <;> rfl
@[simp] theorem Chip.setW_fab (k : Nat) (r : BitVec 5) (v : Word) : (c.setW k r v).fab = c.fab := by unfold Chip.setW; split <;> rfl
@[simp] theorem Chip.setW_col (k : Nat) (r : BitVec 5) (v : Word) : (c.setW k r v).col = c.col := by unfold Chip.setW; split <;> rfl
@[simp] theorem Chip.setW_dbg (k : Nat) (r : BitVec 5) (v : Word) : (c.setW k r v).dbg = c.dbg := by unfold Chip.setW; split <;> rfl
@[simp] theorem Chip.setW_pwr (k : Nat) (r : BitVec 5) (v : Word) : (c.setW k r v).pwr = c.pwr := by unfold Chip.setW; split <;> rfl
@[simp] theorem Chip.setW_pins (k : Nat) (r : BitVec 5) (v : Word) : (c.setW k r v).pins = c.pins := by unfold Chip.setW; split <;> rfl
@[simp] theorem Chip.setW_sec (k : Nat) (r : BitVec 5) (v : Word) : (c.setW k r v).sec = c.sec := by unfold Chip.setW; split <;> rfl
@[simp] theorem Chip.setW_tally (k : Nat) (r : BitVec 5) (v : Word) : (c.setW k r v).tally = c.tally := by unfold Chip.setW; split <;> rfl
@[simp] theorem Chip.setW_tallyCap (k : Nat) (r : BitVec 5) (v : Word) : (c.setW k r v).tallyCap = c.tallyCap := by unfold Chip.setW; split <;> rfl
@[simp] theorem Chip.setW_evls (k : Nat) (r : BitVec 5) (v : Word) : (c.setW k r v).evls = c.evls := by unfold Chip.setW; split <;> rfl
@[simp] theorem Chip.setW_out (k : Nat) (r : BitVec 5) (v : Word) : (c.setW k r v).out = c.out := by unfold Chip.setW; split <;> rfl
@[simp] theorem Chip.setW_free (k : Nat) (r : BitVec 5) (v : Word) : (c.setW k r v).free = c.free := by unfold Chip.setW; split <;> rfl

/-! #### setPair: everything but cpu -/
@[simp] theorem Chip.setPair_regs (k : Nat) (r : BitVec 5) (v : Double) : (c.setPair k r v).regs = c.regs := by simp [Chip.setPair]
@[simp] theorem Chip.setPair_arr (k : Nat) (r : BitVec 5) (v : Double) : (c.setPair k r v).arr = c.arr := by simp [Chip.setPair]
@[simp] theorem Chip.setPair_mem (k : Nat) (r : BitVec 5) (v : Double) : (c.setPair k r v).mem = c.mem := by simp [Chip.setPair]
@[simp] theorem Chip.setPair_ctu (k : Nat) (r : BitVec 5) (v : Double) : (c.setPair k r v).ctu = c.ctu := by simp [Chip.setPair]
@[simp] theorem Chip.setPair_evh (k : Nat) (r : BitVec 5) (v : Double) : (c.setPair k r v).evh = c.evh := by simp [Chip.setPair]
@[simp] theorem Chip.setPair_hst (k : Nat) (r : BitVec 5) (v : Double) : (c.setPair k r v).hst = c.hst := by simp [Chip.setPair]
@[simp] theorem Chip.setPair_ring (k : Nat) (r : BitVec 5) (v : Double) : (c.setPair k r v).ring = c.ring := by simp [Chip.setPair]
@[simp] theorem Chip.setPair_fab (k : Nat) (r : BitVec 5) (v : Double) : (c.setPair k r v).fab = c.fab := by simp [Chip.setPair]
@[simp] theorem Chip.setPair_col (k : Nat) (r : BitVec 5) (v : Double) : (c.setPair k r v).col = c.col := by simp [Chip.setPair]
@[simp] theorem Chip.setPair_dbg (k : Nat) (r : BitVec 5) (v : Double) : (c.setPair k r v).dbg = c.dbg := by simp [Chip.setPair]
@[simp] theorem Chip.setPair_pwr (k : Nat) (r : BitVec 5) (v : Double) : (c.setPair k r v).pwr = c.pwr := by simp [Chip.setPair]
@[simp] theorem Chip.setPair_pins (k : Nat) (r : BitVec 5) (v : Double) : (c.setPair k r v).pins = c.pins := by simp [Chip.setPair]
@[simp] theorem Chip.setPair_sec (k : Nat) (r : BitVec 5) (v : Double) : (c.setPair k r v).sec = c.sec := by simp [Chip.setPair]
@[simp] theorem Chip.setPair_tally (k : Nat) (r : BitVec 5) (v : Double) : (c.setPair k r v).tally = c.tally := by simp [Chip.setPair]
@[simp] theorem Chip.setPair_tallyCap (k : Nat) (r : BitVec 5) (v : Double) : (c.setPair k r v).tallyCap = c.tallyCap := by simp [Chip.setPair]
@[simp] theorem Chip.setPair_evls (k : Nat) (r : BitVec 5) (v : Double) : (c.setPair k r v).evls = c.evls := by simp [Chip.setPair]
@[simp] theorem Chip.setPair_out (k : Nat) (r : BitVec 5) (v : Double) : (c.setPair k r v).out = c.out := by simp [Chip.setPair]
@[simp] theorem Chip.setPair_free (k : Nat) (r : BitVec 5) (v : Double) : (c.setPair k r v).free = c.free := by simp [Chip.setPair]

/-! #### setCell: everything but mem -/
@[simp] theorem Chip.setCell_regs (a : Nat) (v : BitVec 10) : (c.setCell a v).regs = c.regs := rfl
@[simp] theorem Chip.setCell_arr (a : Nat) (v : BitVec 10) : (c.setCell a v).arr = c.arr := rfl
@[simp] theorem Chip.setCell_cpu (a : Nat) (v : BitVec 10) : (c.setCell a v).cpu = c.cpu := rfl
@[simp] theorem Chip.setCell_ctu (a : Nat) (v : BitVec 10) : (c.setCell a v).ctu = c.ctu := rfl
@[simp] theorem Chip.setCell_evh (a : Nat) (v : BitVec 10) : (c.setCell a v).evh = c.evh := rfl
@[simp] theorem Chip.setCell_hst (a : Nat) (v : BitVec 10) : (c.setCell a v).hst = c.hst := rfl
@[simp] theorem Chip.setCell_ring (a : Nat) (v : BitVec 10) : (c.setCell a v).ring = c.ring := rfl
@[simp] theorem Chip.setCell_fab (a : Nat) (v : BitVec 10) : (c.setCell a v).fab = c.fab := rfl
@[simp] theorem Chip.setCell_col (a : Nat) (v : BitVec 10) : (c.setCell a v).col = c.col := rfl
@[simp] theorem Chip.setCell_dbg (a : Nat) (v : BitVec 10) : (c.setCell a v).dbg = c.dbg := rfl
@[simp] theorem Chip.setCell_pwr (a : Nat) (v : BitVec 10) : (c.setCell a v).pwr = c.pwr := rfl
@[simp] theorem Chip.setCell_pins (a : Nat) (v : BitVec 10) : (c.setCell a v).pins = c.pins := rfl
@[simp] theorem Chip.setCell_sec (a : Nat) (v : BitVec 10) : (c.setCell a v).sec = c.sec := rfl
@[simp] theorem Chip.setCell_tally (a : Nat) (v : BitVec 10) : (c.setCell a v).tally = c.tally := rfl
@[simp] theorem Chip.setCell_tallyCap (a : Nat) (v : BitVec 10) : (c.setCell a v).tallyCap = c.tallyCap := rfl
@[simp] theorem Chip.setCell_evls (a : Nat) (v : BitVec 10) : (c.setCell a v).evls = c.evls := rfl
@[simp] theorem Chip.setCell_out (a : Nat) (v : BitVec 10) : (c.setCell a v).out = c.out := rfl
@[simp] theorem Chip.setCell_free (a : Nat) (v : BitVec 10) : (c.setCell a v).free = c.free := rfl

/-! #### setHbmCell: everything but mem -/
@[simp] theorem Chip.setHbmCell_regs (die o : Nat) (v : BitVec 9) : (c.setHbmCell die o v).regs = c.regs := rfl
@[simp] theorem Chip.setHbmCell_arr (die o : Nat) (v : BitVec 9) : (c.setHbmCell die o v).arr = c.arr := rfl
@[simp] theorem Chip.setHbmCell_cpu (die o : Nat) (v : BitVec 9) : (c.setHbmCell die o v).cpu = c.cpu := rfl
@[simp] theorem Chip.setHbmCell_ctu (die o : Nat) (v : BitVec 9) : (c.setHbmCell die o v).ctu = c.ctu := rfl
@[simp] theorem Chip.setHbmCell_evh (die o : Nat) (v : BitVec 9) : (c.setHbmCell die o v).evh = c.evh := rfl
@[simp] theorem Chip.setHbmCell_hst (die o : Nat) (v : BitVec 9) : (c.setHbmCell die o v).hst = c.hst := rfl
@[simp] theorem Chip.setHbmCell_ring (die o : Nat) (v : BitVec 9) : (c.setHbmCell die o v).ring = c.ring := rfl
@[simp] theorem Chip.setHbmCell_fab (die o : Nat) (v : BitVec 9) : (c.setHbmCell die o v).fab = c.fab := rfl
@[simp] theorem Chip.setHbmCell_col (die o : Nat) (v : BitVec 9) : (c.setHbmCell die o v).col = c.col := rfl
@[simp] theorem Chip.setHbmCell_dbg (die o : Nat) (v : BitVec 9) : (c.setHbmCell die o v).dbg = c.dbg := rfl
@[simp] theorem Chip.setHbmCell_pwr (die o : Nat) (v : BitVec 9) : (c.setHbmCell die o v).pwr = c.pwr := rfl
@[simp] theorem Chip.setHbmCell_pins (die o : Nat) (v : BitVec 9) : (c.setHbmCell die o v).pins = c.pins := rfl
@[simp] theorem Chip.setHbmCell_sec (die o : Nat) (v : BitVec 9) : (c.setHbmCell die o v).sec = c.sec := rfl
@[simp] theorem Chip.setHbmCell_tally (die o : Nat) (v : BitVec 9) : (c.setHbmCell die o v).tally = c.tally := rfl
@[simp] theorem Chip.setHbmCell_tallyCap (die o : Nat) (v : BitVec 9) : (c.setHbmCell die o v).tallyCap = c.tallyCap := rfl
@[simp] theorem Chip.setHbmCell_evls (die o : Nat) (v : BitVec 9) : (c.setHbmCell die o v).evls = c.evls := rfl
@[simp] theorem Chip.setHbmCell_out (die o : Nat) (v : BitVec 9) : (c.setHbmCell die o v).out = c.out := rfl
@[simp] theorem Chip.setHbmCell_free (die o : Nat) (v : BitVec 9) : (c.setHbmCell die o v).free = c.free := rfl

/-! #### setLamb: everything but arr -/
@[simp] theorem Chip.setLamb_regs (f i : Nat) (v : LambRow) : (c.setLamb f i v).regs = c.regs := rfl
@[simp] theorem Chip.setLamb_cpu (f i : Nat) (v : LambRow) : (c.setLamb f i v).cpu = c.cpu := rfl
@[simp] theorem Chip.setLamb_mem (f i : Nat) (v : LambRow) : (c.setLamb f i v).mem = c.mem := rfl
@[simp] theorem Chip.setLamb_ctu (f i : Nat) (v : LambRow) : (c.setLamb f i v).ctu = c.ctu := rfl
@[simp] theorem Chip.setLamb_evh (f i : Nat) (v : LambRow) : (c.setLamb f i v).evh = c.evh := rfl
@[simp] theorem Chip.setLamb_hst (f i : Nat) (v : LambRow) : (c.setLamb f i v).hst = c.hst := rfl
@[simp] theorem Chip.setLamb_ring (f i : Nat) (v : LambRow) : (c.setLamb f i v).ring = c.ring := rfl
@[simp] theorem Chip.setLamb_fab (f i : Nat) (v : LambRow) : (c.setLamb f i v).fab = c.fab := rfl
@[simp] theorem Chip.setLamb_col (f i : Nat) (v : LambRow) : (c.setLamb f i v).col = c.col := rfl
@[simp] theorem Chip.setLamb_dbg (f i : Nat) (v : LambRow) : (c.setLamb f i v).dbg = c.dbg := rfl
@[simp] theorem Chip.setLamb_pwr (f i : Nat) (v : LambRow) : (c.setLamb f i v).pwr = c.pwr := rfl
@[simp] theorem Chip.setLamb_pins (f i : Nat) (v : LambRow) : (c.setLamb f i v).pins = c.pins := rfl
@[simp] theorem Chip.setLamb_sec (f i : Nat) (v : LambRow) : (c.setLamb f i v).sec = c.sec := rfl
@[simp] theorem Chip.setLamb_tally (f i : Nat) (v : LambRow) : (c.setLamb f i v).tally = c.tally := rfl
@[simp] theorem Chip.setLamb_tallyCap (f i : Nat) (v : LambRow) : (c.setLamb f i v).tallyCap = c.tallyCap := rfl
@[simp] theorem Chip.setLamb_evls (f i : Nat) (v : LambRow) : (c.setLamb f i v).evls = c.evls := rfl
@[simp] theorem Chip.setLamb_out (f i : Nat) (v : LambRow) : (c.setLamb f i v).out = c.out := rfl
@[simp] theorem Chip.setLamb_free (f i : Nat) (v : LambRow) : (c.setLamb f i v).free = c.free := rfl

/-! #### setSlice: everything but arr -/
@[simp] theorem Chip.setSlice_regs (f q i : Nat) (v : BitVec 40) : (c.setSlice f q i v).regs = c.regs := by unfold Chip.setSlice; split <;> rfl
@[simp] theorem Chip.setSlice_cpu (f q i : Nat) (v : BitVec 40) : (c.setSlice f q i v).cpu = c.cpu := by unfold Chip.setSlice; split <;> rfl
@[simp] theorem Chip.setSlice_mem (f q i : Nat) (v : BitVec 40) : (c.setSlice f q i v).mem = c.mem := by unfold Chip.setSlice; split <;> rfl
@[simp] theorem Chip.setSlice_ctu (f q i : Nat) (v : BitVec 40) : (c.setSlice f q i v).ctu = c.ctu := by unfold Chip.setSlice; split <;> rfl
@[simp] theorem Chip.setSlice_evh (f q i : Nat) (v : BitVec 40) : (c.setSlice f q i v).evh = c.evh := by unfold Chip.setSlice; split <;> rfl
@[simp] theorem Chip.setSlice_hst (f q i : Nat) (v : BitVec 40) : (c.setSlice f q i v).hst = c.hst := by unfold Chip.setSlice; split <;> rfl
@[simp] theorem Chip.setSlice_ring (f q i : Nat) (v : BitVec 40) : (c.setSlice f q i v).ring = c.ring := by unfold Chip.setSlice; split <;> rfl
@[simp] theorem Chip.setSlice_fab (f q i : Nat) (v : BitVec 40) : (c.setSlice f q i v).fab = c.fab := by unfold Chip.setSlice; split <;> rfl
@[simp] theorem Chip.setSlice_col (f q i : Nat) (v : BitVec 40) : (c.setSlice f q i v).col = c.col := by unfold Chip.setSlice; split <;> rfl
@[simp] theorem Chip.setSlice_dbg (f q i : Nat) (v : BitVec 40) : (c.setSlice f q i v).dbg = c.dbg := by unfold Chip.setSlice; split <;> rfl
@[simp] theorem Chip.setSlice_pwr (f q i : Nat) (v : BitVec 40) : (c.setSlice f q i v).pwr = c.pwr := by unfold Chip.setSlice; split <;> rfl
@[simp] theorem Chip.setSlice_pins (f q i : Nat) (v : BitVec 40) : (c.setSlice f q i v).pins = c.pins := by unfold Chip.setSlice; split <;> rfl
@[simp] theorem Chip.setSlice_sec (f q i : Nat) (v : BitVec 40) : (c.setSlice f q i v).sec = c.sec := by unfold Chip.setSlice; split <;> rfl
@[simp] theorem Chip.setSlice_tally (f q i : Nat) (v : BitVec 40) : (c.setSlice f q i v).tally = c.tally := by unfold Chip.setSlice; split <;> rfl
@[simp] theorem Chip.setSlice_tallyCap (f q i : Nat) (v : BitVec 40) : (c.setSlice f q i v).tallyCap = c.tallyCap := by unfold Chip.setSlice; split <;> rfl
@[simp] theorem Chip.setSlice_evls (f q i : Nat) (v : BitVec 40) : (c.setSlice f q i v).evls = c.evls := by unfold Chip.setSlice; split <;> rfl
@[simp] theorem Chip.setSlice_out (f q i : Nat) (v : BitVec 40) : (c.setSlice f q i v).out = c.out := by unfold Chip.setSlice; split <;> rfl
@[simp] theorem Chip.setSlice_free (f q i : Nat) (v : BitVec 40) : (c.setSlice f q i v).free = c.free := by unfold Chip.setSlice; split <;> rfl

/-! #### endWork: everything but arr -/
@[simp] theorem Chip.endWork_regs (die : Nat) : (c.endWork die).regs = c.regs := rfl
@[simp] theorem Chip.endWork_cpu (die : Nat) : (c.endWork die).cpu = c.cpu := rfl
@[simp] theorem Chip.endWork_mem (die : Nat) : (c.endWork die).mem = c.mem := rfl
@[simp] theorem Chip.endWork_ctu (die : Nat) : (c.endWork die).ctu = c.ctu := rfl
@[simp] theorem Chip.endWork_evh (die : Nat) : (c.endWork die).evh = c.evh := rfl
@[simp] theorem Chip.endWork_hst (die : Nat) : (c.endWork die).hst = c.hst := rfl
@[simp] theorem Chip.endWork_ring (die : Nat) : (c.endWork die).ring = c.ring := rfl
@[simp] theorem Chip.endWork_fab (die : Nat) : (c.endWork die).fab = c.fab := rfl
@[simp] theorem Chip.endWork_col (die : Nat) : (c.endWork die).col = c.col := rfl
@[simp] theorem Chip.endWork_dbg (die : Nat) : (c.endWork die).dbg = c.dbg := rfl
@[simp] theorem Chip.endWork_pwr (die : Nat) : (c.endWork die).pwr = c.pwr := rfl
@[simp] theorem Chip.endWork_pins (die : Nat) : (c.endWork die).pins = c.pins := rfl
@[simp] theorem Chip.endWork_sec (die : Nat) : (c.endWork die).sec = c.sec := rfl
@[simp] theorem Chip.endWork_tally (die : Nat) : (c.endWork die).tally = c.tally := rfl
@[simp] theorem Chip.endWork_tallyCap (die : Nat) : (c.endWork die).tallyCap = c.tallyCap := rfl
@[simp] theorem Chip.endWork_evls (die : Nat) : (c.endWork die).evls = c.evls := rfl
@[simp] theorem Chip.endWork_out (die : Nat) : (c.endWork die).out = c.out := rfl
@[simp] theorem Chip.endWork_free (die : Nat) : (c.endWork die).free = c.free := rfl

/-! #### setMseq: everything but arr -/
@[simp] theorem Chip.setMseq_regs (k : Nat) (m : Mseq) : (c.setMseq k m).regs = c.regs := rfl
@[simp] theorem Chip.setMseq_cpu (k : Nat) (m : Mseq) : (c.setMseq k m).cpu = c.cpu := rfl
@[simp] theorem Chip.setMseq_mem (k : Nat) (m : Mseq) : (c.setMseq k m).mem = c.mem := rfl
@[simp] theorem Chip.setMseq_ctu (k : Nat) (m : Mseq) : (c.setMseq k m).ctu = c.ctu := rfl
@[simp] theorem Chip.setMseq_evh (k : Nat) (m : Mseq) : (c.setMseq k m).evh = c.evh := rfl
@[simp] theorem Chip.setMseq_hst (k : Nat) (m : Mseq) : (c.setMseq k m).hst = c.hst := rfl
@[simp] theorem Chip.setMseq_ring (k : Nat) (m : Mseq) : (c.setMseq k m).ring = c.ring := rfl
@[simp] theorem Chip.setMseq_fab (k : Nat) (m : Mseq) : (c.setMseq k m).fab = c.fab := rfl
@[simp] theorem Chip.setMseq_col (k : Nat) (m : Mseq) : (c.setMseq k m).col = c.col := rfl
@[simp] theorem Chip.setMseq_dbg (k : Nat) (m : Mseq) : (c.setMseq k m).dbg = c.dbg := rfl
@[simp] theorem Chip.setMseq_pwr (k : Nat) (m : Mseq) : (c.setMseq k m).pwr = c.pwr := rfl
@[simp] theorem Chip.setMseq_pins (k : Nat) (m : Mseq) : (c.setMseq k m).pins = c.pins := rfl
@[simp] theorem Chip.setMseq_sec (k : Nat) (m : Mseq) : (c.setMseq k m).sec = c.sec := rfl
@[simp] theorem Chip.setMseq_tally (k : Nat) (m : Mseq) : (c.setMseq k m).tally = c.tally := rfl
@[simp] theorem Chip.setMseq_tallyCap (k : Nat) (m : Mseq) : (c.setMseq k m).tallyCap = c.tallyCap := rfl
@[simp] theorem Chip.setMseq_evls (k : Nat) (m : Mseq) : (c.setMseq k m).evls = c.evls := rfl
@[simp] theorem Chip.setMseq_out (k : Nat) (m : Mseq) : (c.setMseq k m).out = c.out := rfl
@[simp] theorem Chip.setMseq_free (k : Nat) (m : Mseq) : (c.setMseq k m).free = c.free := rfl

/-! #### modMseq: everything but arr -/
@[simp] theorem Chip.modMseq_regs (k : Nat) (g : Mseq → Mseq) : (c.modMseq k g).regs = c.regs := rfl
@[simp] theorem Chip.modMseq_cpu (k : Nat) (g : Mseq → Mseq) : (c.modMseq k g).cpu = c.cpu := rfl
@[simp] theorem Chip.modMseq_mem (k : Nat) (g : Mseq → Mseq) : (c.modMseq k g).mem = c.mem := rfl
@[simp] theorem Chip.modMseq_ctu (k : Nat) (g : Mseq → Mseq) : (c.modMseq k g).ctu = c.ctu := rfl
@[simp] theorem Chip.modMseq_evh (k : Nat) (g : Mseq → Mseq) : (c.modMseq k g).evh = c.evh := rfl
@[simp] theorem Chip.modMseq_hst (k : Nat) (g : Mseq → Mseq) : (c.modMseq k g).hst = c.hst := rfl
@[simp] theorem Chip.modMseq_ring (k : Nat) (g : Mseq → Mseq) : (c.modMseq k g).ring = c.ring := rfl
@[simp] theorem Chip.modMseq_fab (k : Nat) (g : Mseq → Mseq) : (c.modMseq k g).fab = c.fab := rfl
@[simp] theorem Chip.modMseq_col (k : Nat) (g : Mseq → Mseq) : (c.modMseq k g).col = c.col := rfl
@[simp] theorem Chip.modMseq_dbg (k : Nat) (g : Mseq → Mseq) : (c.modMseq k g).dbg = c.dbg := rfl
@[simp] theorem Chip.modMseq_pwr (k : Nat) (g : Mseq → Mseq) : (c.modMseq k g).pwr = c.pwr := rfl
@[simp] theorem Chip.modMseq_pins (k : Nat) (g : Mseq → Mseq) : (c.modMseq k g).pins = c.pins := rfl
@[simp] theorem Chip.modMseq_sec (k : Nat) (g : Mseq → Mseq) : (c.modMseq k g).sec = c.sec := rfl
@[simp] theorem Chip.modMseq_tally (k : Nat) (g : Mseq → Mseq) : (c.modMseq k g).tally = c.tally := rfl
@[simp] theorem Chip.modMseq_tallyCap (k : Nat) (g : Mseq → Mseq) : (c.modMseq k g).tallyCap = c.tallyCap := rfl
@[simp] theorem Chip.modMseq_evls (k : Nat) (g : Mseq → Mseq) : (c.modMseq k g).evls = c.evls := rfl
@[simp] theorem Chip.modMseq_out (k : Nat) (g : Mseq → Mseq) : (c.modMseq k g).out = c.out := rfl
@[simp] theorem Chip.modMseq_free (k : Nat) (g : Mseq → Mseq) : (c.modMseq k g).free = c.free := rfl

/-! #### setBridge: everything but arr -/
@[simp] theorem Chip.setBridge_regs (die : Nat) (x : Option (BitVec 168)) : (c.setBridge die x).regs = c.regs := rfl
@[simp] theorem Chip.setBridge_cpu (die : Nat) (x : Option (BitVec 168)) : (c.setBridge die x).cpu = c.cpu := rfl
@[simp] theorem Chip.setBridge_mem (die : Nat) (x : Option (BitVec 168)) : (c.setBridge die x).mem = c.mem := rfl
@[simp] theorem Chip.setBridge_ctu (die : Nat) (x : Option (BitVec 168)) : (c.setBridge die x).ctu = c.ctu := rfl
@[simp] theorem Chip.setBridge_evh (die : Nat) (x : Option (BitVec 168)) : (c.setBridge die x).evh = c.evh := rfl
@[simp] theorem Chip.setBridge_hst (die : Nat) (x : Option (BitVec 168)) : (c.setBridge die x).hst = c.hst := rfl
@[simp] theorem Chip.setBridge_ring (die : Nat) (x : Option (BitVec 168)) : (c.setBridge die x).ring = c.ring := rfl
@[simp] theorem Chip.setBridge_fab (die : Nat) (x : Option (BitVec 168)) : (c.setBridge die x).fab = c.fab := rfl
@[simp] theorem Chip.setBridge_col (die : Nat) (x : Option (BitVec 168)) : (c.setBridge die x).col = c.col := rfl
@[simp] theorem Chip.setBridge_dbg (die : Nat) (x : Option (BitVec 168)) : (c.setBridge die x).dbg = c.dbg := rfl
@[simp] theorem Chip.setBridge_pwr (die : Nat) (x : Option (BitVec 168)) : (c.setBridge die x).pwr = c.pwr := rfl
@[simp] theorem Chip.setBridge_pins (die : Nat) (x : Option (BitVec 168)) : (c.setBridge die x).pins = c.pins := rfl
@[simp] theorem Chip.setBridge_sec (die : Nat) (x : Option (BitVec 168)) : (c.setBridge die x).sec = c.sec := rfl
@[simp] theorem Chip.setBridge_tally (die : Nat) (x : Option (BitVec 168)) : (c.setBridge die x).tally = c.tally := rfl
@[simp] theorem Chip.setBridge_tallyCap (die : Nat) (x : Option (BitVec 168)) : (c.setBridge die x).tallyCap = c.tallyCap := rfl
@[simp] theorem Chip.setBridge_evls (die : Nat) (x : Option (BitVec 168)) : (c.setBridge die x).evls = c.evls := rfl
@[simp] theorem Chip.setBridge_out (die : Nat) (x : Option (BitVec 168)) : (c.setBridge die x).out = c.out := rfl
@[simp] theorem Chip.setBridge_free (die : Nat) (x : Option (BitVec 168)) : (c.setBridge die x).free = c.free := rfl

/-! #### setRx: everything but arr -/
@[simp] theorem Chip.setRx_regs (f : Nat) (x : Option (BitVec 121)) : (c.setRx f x).regs = c.regs := rfl
@[simp] theorem Chip.setRx_cpu (f : Nat) (x : Option (BitVec 121)) : (c.setRx f x).cpu = c.cpu := rfl
@[simp] theorem Chip.setRx_mem (f : Nat) (x : Option (BitVec 121)) : (c.setRx f x).mem = c.mem := rfl
@[simp] theorem Chip.setRx_ctu (f : Nat) (x : Option (BitVec 121)) : (c.setRx f x).ctu = c.ctu := rfl
@[simp] theorem Chip.setRx_evh (f : Nat) (x : Option (BitVec 121)) : (c.setRx f x).evh = c.evh := rfl
@[simp] theorem Chip.setRx_hst (f : Nat) (x : Option (BitVec 121)) : (c.setRx f x).hst = c.hst := rfl
@[simp] theorem Chip.setRx_ring (f : Nat) (x : Option (BitVec 121)) : (c.setRx f x).ring = c.ring := rfl
@[simp] theorem Chip.setRx_fab (f : Nat) (x : Option (BitVec 121)) : (c.setRx f x).fab = c.fab := rfl
@[simp] theorem Chip.setRx_col (f : Nat) (x : Option (BitVec 121)) : (c.setRx f x).col = c.col := rfl
@[simp] theorem Chip.setRx_dbg (f : Nat) (x : Option (BitVec 121)) : (c.setRx f x).dbg = c.dbg := rfl
@[simp] theorem Chip.setRx_pwr (f : Nat) (x : Option (BitVec 121)) : (c.setRx f x).pwr = c.pwr := rfl
@[simp] theorem Chip.setRx_pins (f : Nat) (x : Option (BitVec 121)) : (c.setRx f x).pins = c.pins := rfl
@[simp] theorem Chip.setRx_sec (f : Nat) (x : Option (BitVec 121)) : (c.setRx f x).sec = c.sec := rfl
@[simp] theorem Chip.setRx_tally (f : Nat) (x : Option (BitVec 121)) : (c.setRx f x).tally = c.tally := rfl
@[simp] theorem Chip.setRx_tallyCap (f : Nat) (x : Option (BitVec 121)) : (c.setRx f x).tallyCap = c.tallyCap := rfl
@[simp] theorem Chip.setRx_evls (f : Nat) (x : Option (BitVec 121)) : (c.setRx f x).evls = c.evls := rfl
@[simp] theorem Chip.setRx_out (f : Nat) (x : Option (BitVec 121)) : (c.setRx f x).out = c.out := rfl
@[simp] theorem Chip.setRx_free (f : Nat) (x : Option (BitVec 121)) : (c.setRx f x).free = c.free := rfl

/-! #### killFold: everything but arr -/
@[simp] theorem Chip.killFold_regs (f : Nat) : (c.killFold f).regs = c.regs := rfl
@[simp] theorem Chip.killFold_cpu (f : Nat) : (c.killFold f).cpu = c.cpu := rfl
@[simp] theorem Chip.killFold_mem (f : Nat) : (c.killFold f).mem = c.mem := rfl
@[simp] theorem Chip.killFold_ctu (f : Nat) : (c.killFold f).ctu = c.ctu := rfl
@[simp] theorem Chip.killFold_evh (f : Nat) : (c.killFold f).evh = c.evh := rfl
@[simp] theorem Chip.killFold_hst (f : Nat) : (c.killFold f).hst = c.hst := rfl
@[simp] theorem Chip.killFold_ring (f : Nat) : (c.killFold f).ring = c.ring := rfl
@[simp] theorem Chip.killFold_fab (f : Nat) : (c.killFold f).fab = c.fab := rfl
@[simp] theorem Chip.killFold_col (f : Nat) : (c.killFold f).col = c.col := rfl
@[simp] theorem Chip.killFold_dbg (f : Nat) : (c.killFold f).dbg = c.dbg := rfl
@[simp] theorem Chip.killFold_pwr (f : Nat) : (c.killFold f).pwr = c.pwr := rfl
@[simp] theorem Chip.killFold_pins (f : Nat) : (c.killFold f).pins = c.pins := rfl
@[simp] theorem Chip.killFold_sec (f : Nat) : (c.killFold f).sec = c.sec := rfl
@[simp] theorem Chip.killFold_tally (f : Nat) : (c.killFold f).tally = c.tally := rfl
@[simp] theorem Chip.killFold_tallyCap (f : Nat) : (c.killFold f).tallyCap = c.tallyCap := rfl
@[simp] theorem Chip.killFold_evls (f : Nat) : (c.killFold f).evls = c.evls := rfl
@[simp] theorem Chip.killFold_out (f : Nat) : (c.killFold f).out = c.out := rfl
@[simp] theorem Chip.killFold_free (f : Nat) : (c.killFold f).free = c.free := rfl

/-! #### setChan: everything but ctu -/
@[simp] theorem Chip.setChan_regs (die p ch : Nat) (x : Chan) : (c.setChan die p ch x).regs = c.regs := rfl
@[simp] theorem Chip.setChan_arr (die p ch : Nat) (x : Chan) : (c.setChan die p ch x).arr = c.arr := rfl
@[simp] theorem Chip.setChan_cpu (die p ch : Nat) (x : Chan) : (c.setChan die p ch x).cpu = c.cpu := rfl
@[simp] theorem Chip.setChan_mem (die p ch : Nat) (x : Chan) : (c.setChan die p ch x).mem = c.mem := rfl
@[simp] theorem Chip.setChan_evh (die p ch : Nat) (x : Chan) : (c.setChan die p ch x).evh = c.evh := rfl
@[simp] theorem Chip.setChan_hst (die p ch : Nat) (x : Chan) : (c.setChan die p ch x).hst = c.hst := rfl
@[simp] theorem Chip.setChan_ring (die p ch : Nat) (x : Chan) : (c.setChan die p ch x).ring = c.ring := rfl
@[simp] theorem Chip.setChan_fab (die p ch : Nat) (x : Chan) : (c.setChan die p ch x).fab = c.fab := rfl
@[simp] theorem Chip.setChan_col (die p ch : Nat) (x : Chan) : (c.setChan die p ch x).col = c.col := rfl
@[simp] theorem Chip.setChan_dbg (die p ch : Nat) (x : Chan) : (c.setChan die p ch x).dbg = c.dbg := rfl
@[simp] theorem Chip.setChan_pwr (die p ch : Nat) (x : Chan) : (c.setChan die p ch x).pwr = c.pwr := rfl
@[simp] theorem Chip.setChan_pins (die p ch : Nat) (x : Chan) : (c.setChan die p ch x).pins = c.pins := rfl
@[simp] theorem Chip.setChan_sec (die p ch : Nat) (x : Chan) : (c.setChan die p ch x).sec = c.sec := rfl
@[simp] theorem Chip.setChan_tally (die p ch : Nat) (x : Chan) : (c.setChan die p ch x).tally = c.tally := rfl
@[simp] theorem Chip.setChan_tallyCap (die p ch : Nat) (x : Chan) : (c.setChan die p ch x).tallyCap = c.tallyCap := rfl
@[simp] theorem Chip.setChan_evls (die p ch : Nat) (x : Chan) : (c.setChan die p ch x).evls = c.evls := rfl
@[simp] theorem Chip.setChan_out (die p ch : Nat) (x : Chan) : (c.setChan die p ch x).out = c.out := rfl
@[simp] theorem Chip.setChan_free (die p ch : Nat) (x : Chan) : (c.setChan die p ch x).free = c.free := rfl

/-! #### setTile: everything but fab -/
@[simp] theorem Chip.setTile_regs (t : Nat) (x : Tile) : (c.setTile t x).regs = c.regs := rfl
@[simp] theorem Chip.setTile_arr (t : Nat) (x : Tile) : (c.setTile t x).arr = c.arr := rfl
@[simp] theorem Chip.setTile_cpu (t : Nat) (x : Tile) : (c.setTile t x).cpu = c.cpu := rfl
@[simp] theorem Chip.setTile_mem (t : Nat) (x : Tile) : (c.setTile t x).mem = c.mem := rfl
@[simp] theorem Chip.setTile_ctu (t : Nat) (x : Tile) : (c.setTile t x).ctu = c.ctu := rfl
@[simp] theorem Chip.setTile_evh (t : Nat) (x : Tile) : (c.setTile t x).evh = c.evh := rfl
@[simp] theorem Chip.setTile_hst (t : Nat) (x : Tile) : (c.setTile t x).hst = c.hst := rfl
@[simp] theorem Chip.setTile_ring (t : Nat) (x : Tile) : (c.setTile t x).ring = c.ring := rfl
@[simp] theorem Chip.setTile_col (t : Nat) (x : Tile) : (c.setTile t x).col = c.col := rfl
@[simp] theorem Chip.setTile_dbg (t : Nat) (x : Tile) : (c.setTile t x).dbg = c.dbg := rfl
@[simp] theorem Chip.setTile_pwr (t : Nat) (x : Tile) : (c.setTile t x).pwr = c.pwr := rfl
@[simp] theorem Chip.setTile_pins (t : Nat) (x : Tile) : (c.setTile t x).pins = c.pins := rfl
@[simp] theorem Chip.setTile_sec (t : Nat) (x : Tile) : (c.setTile t x).sec = c.sec := rfl
@[simp] theorem Chip.setTile_tally (t : Nat) (x : Tile) : (c.setTile t x).tally = c.tally := rfl
@[simp] theorem Chip.setTile_tallyCap (t : Nat) (x : Tile) : (c.setTile t x).tallyCap = c.tallyCap := rfl
@[simp] theorem Chip.setTile_evls (t : Nat) (x : Tile) : (c.setTile t x).evls = c.evls := rfl
@[simp] theorem Chip.setTile_out (t : Nat) (x : Tile) : (c.setTile t x).out = c.out := rfl
@[simp] theorem Chip.setTile_free (t : Nat) (x : Tile) : (c.setTile t x).free = c.free := rfl

/-! #### setCch: everything but col -/
@[simp] theorem Chip.setCch_regs (e h : Nat) (x : CChan) : (c.setCch e h x).regs = c.regs := rfl
@[simp] theorem Chip.setCch_arr (e h : Nat) (x : CChan) : (c.setCch e h x).arr = c.arr := rfl
@[simp] theorem Chip.setCch_cpu (e h : Nat) (x : CChan) : (c.setCch e h x).cpu = c.cpu := rfl
@[simp] theorem Chip.setCch_mem (e h : Nat) (x : CChan) : (c.setCch e h x).mem = c.mem := rfl
@[simp] theorem Chip.setCch_ctu (e h : Nat) (x : CChan) : (c.setCch e h x).ctu = c.ctu := rfl
@[simp] theorem Chip.setCch_evh (e h : Nat) (x : CChan) : (c.setCch e h x).evh = c.evh := rfl
@[simp] theorem Chip.setCch_hst (e h : Nat) (x : CChan) : (c.setCch e h x).hst = c.hst := rfl
@[simp] theorem Chip.setCch_ring (e h : Nat) (x : CChan) : (c.setCch e h x).ring = c.ring := rfl
@[simp] theorem Chip.setCch_fab (e h : Nat) (x : CChan) : (c.setCch e h x).fab = c.fab := rfl
@[simp] theorem Chip.setCch_dbg (e h : Nat) (x : CChan) : (c.setCch e h x).dbg = c.dbg := rfl
@[simp] theorem Chip.setCch_pwr (e h : Nat) (x : CChan) : (c.setCch e h x).pwr = c.pwr := rfl
@[simp] theorem Chip.setCch_pins (e h : Nat) (x : CChan) : (c.setCch e h x).pins = c.pins := rfl
@[simp] theorem Chip.setCch_sec (e h : Nat) (x : CChan) : (c.setCch e h x).sec = c.sec := rfl
@[simp] theorem Chip.setCch_tally (e h : Nat) (x : CChan) : (c.setCch e h x).tally = c.tally := rfl
@[simp] theorem Chip.setCch_tallyCap (e h : Nat) (x : CChan) : (c.setCch e h x).tallyCap = c.tallyCap := rfl
@[simp] theorem Chip.setCch_evls (e h : Nat) (x : CChan) : (c.setCch e h x).evls = c.evls := rfl
@[simp] theorem Chip.setCch_out (e h : Nat) (x : CChan) : (c.setCch e h x).out = c.out := rfl
@[simp] theorem Chip.setCch_free (e h : Nat) (x : CChan) : (c.setCch e h x).free = c.free := rfl

/-! #### setDma: everything but hst -/
@[simp] theorem Chip.setDma_regs (h e : Nat) (x : Dma) : (c.setDma h e x).regs = c.regs := rfl
@[simp] theorem Chip.setDma_arr (h e : Nat) (x : Dma) : (c.setDma h e x).arr = c.arr := rfl
@[simp] theorem Chip.setDma_cpu (h e : Nat) (x : Dma) : (c.setDma h e x).cpu = c.cpu := rfl
@[simp] theorem Chip.setDma_mem (h e : Nat) (x : Dma) : (c.setDma h e x).mem = c.mem := rfl
@[simp] theorem Chip.setDma_ctu (h e : Nat) (x : Dma) : (c.setDma h e x).ctu = c.ctu := rfl
@[simp] theorem Chip.setDma_evh (h e : Nat) (x : Dma) : (c.setDma h e x).evh = c.evh := rfl
@[simp] theorem Chip.setDma_ring (h e : Nat) (x : Dma) : (c.setDma h e x).ring = c.ring := rfl
@[simp] theorem Chip.setDma_fab (h e : Nat) (x : Dma) : (c.setDma h e x).fab = c.fab := rfl
@[simp] theorem Chip.setDma_col (h e : Nat) (x : Dma) : (c.setDma h e x).col = c.col := rfl
@[simp] theorem Chip.setDma_dbg (h e : Nat) (x : Dma) : (c.setDma h e x).dbg = c.dbg := rfl
@[simp] theorem Chip.setDma_pwr (h e : Nat) (x : Dma) : (c.setDma h e x).pwr = c.pwr := rfl
@[simp] theorem Chip.setDma_pins (h e : Nat) (x : Dma) : (c.setDma h e x).pins = c.pins := rfl
@[simp] theorem Chip.setDma_sec (h e : Nat) (x : Dma) : (c.setDma h e x).sec = c.sec := rfl
@[simp] theorem Chip.setDma_tally (h e : Nat) (x : Dma) : (c.setDma h e x).tally = c.tally := rfl
@[simp] theorem Chip.setDma_tallyCap (h e : Nat) (x : Dma) : (c.setDma h e x).tallyCap = c.tallyCap := rfl
@[simp] theorem Chip.setDma_evls (h e : Nat) (x : Dma) : (c.setDma h e x).evls = c.evls := rfl
@[simp] theorem Chip.setDma_out (h e : Nat) (x : Dma) : (c.setDma h e x).out = c.out := rfl
@[simp] theorem Chip.setDma_free (h e : Nat) (x : Dma) : (c.setDma h e x).free = c.free := rfl

/-! #### setMsix: everything but hst -/
@[simp] theorem Chip.setMsix_regs (key : Nat) (v : BitVec 32) : (c.setMsix key v).regs = c.regs := rfl
@[simp] theorem Chip.setMsix_arr (key : Nat) (v : BitVec 32) : (c.setMsix key v).arr = c.arr := rfl
@[simp] theorem Chip.setMsix_cpu (key : Nat) (v : BitVec 32) : (c.setMsix key v).cpu = c.cpu := rfl
@[simp] theorem Chip.setMsix_mem (key : Nat) (v : BitVec 32) : (c.setMsix key v).mem = c.mem := rfl
@[simp] theorem Chip.setMsix_ctu (key : Nat) (v : BitVec 32) : (c.setMsix key v).ctu = c.ctu := rfl
@[simp] theorem Chip.setMsix_evh (key : Nat) (v : BitVec 32) : (c.setMsix key v).evh = c.evh := rfl
@[simp] theorem Chip.setMsix_ring (key : Nat) (v : BitVec 32) : (c.setMsix key v).ring = c.ring := rfl
@[simp] theorem Chip.setMsix_fab (key : Nat) (v : BitVec 32) : (c.setMsix key v).fab = c.fab := rfl
@[simp] theorem Chip.setMsix_col (key : Nat) (v : BitVec 32) : (c.setMsix key v).col = c.col := rfl
@[simp] theorem Chip.setMsix_dbg (key : Nat) (v : BitVec 32) : (c.setMsix key v).dbg = c.dbg := rfl
@[simp] theorem Chip.setMsix_pwr (key : Nat) (v : BitVec 32) : (c.setMsix key v).pwr = c.pwr := rfl
@[simp] theorem Chip.setMsix_pins (key : Nat) (v : BitVec 32) : (c.setMsix key v).pins = c.pins := rfl
@[simp] theorem Chip.setMsix_sec (key : Nat) (v : BitVec 32) : (c.setMsix key v).sec = c.sec := rfl
@[simp] theorem Chip.setMsix_tally (key : Nat) (v : BitVec 32) : (c.setMsix key v).tally = c.tally := rfl
@[simp] theorem Chip.setMsix_tallyCap (key : Nat) (v : BitVec 32) : (c.setMsix key v).tallyCap = c.tallyCap := rfl
@[simp] theorem Chip.setMsix_evls (key : Nat) (v : BitVec 32) : (c.setMsix key v).evls = c.evls := rfl
@[simp] theorem Chip.setMsix_out (key : Nat) (v : BitVec 32) : (c.setMsix key v).out = c.out := rfl
@[simp] theorem Chip.setMsix_free (key : Nat) (v : BitVec 32) : (c.setMsix key v).free = c.free := rfl

/-! #### setPba: everything but hst -/
@[simp] theorem Chip.setPba_regs (v : Nat) (b : Bool) : (c.setPba v b).regs = c.regs := rfl
@[simp] theorem Chip.setPba_arr (v : Nat) (b : Bool) : (c.setPba v b).arr = c.arr := rfl
@[simp] theorem Chip.setPba_cpu (v : Nat) (b : Bool) : (c.setPba v b).cpu = c.cpu := rfl
@[simp] theorem Chip.setPba_mem (v : Nat) (b : Bool) : (c.setPba v b).mem = c.mem := rfl
@[simp] theorem Chip.setPba_ctu (v : Nat) (b : Bool) : (c.setPba v b).ctu = c.ctu := rfl
@[simp] theorem Chip.setPba_evh (v : Nat) (b : Bool) : (c.setPba v b).evh = c.evh := rfl
@[simp] theorem Chip.setPba_ring (v : Nat) (b : Bool) : (c.setPba v b).ring = c.ring := rfl
@[simp] theorem Chip.setPba_fab (v : Nat) (b : Bool) : (c.setPba v b).fab = c.fab := rfl
@[simp] theorem Chip.setPba_col (v : Nat) (b : Bool) : (c.setPba v b).col = c.col := rfl
@[simp] theorem Chip.setPba_dbg (v : Nat) (b : Bool) : (c.setPba v b).dbg = c.dbg := rfl
@[simp] theorem Chip.setPba_pwr (v : Nat) (b : Bool) : (c.setPba v b).pwr = c.pwr := rfl
@[simp] theorem Chip.setPba_pins (v : Nat) (b : Bool) : (c.setPba v b).pins = c.pins := rfl
@[simp] theorem Chip.setPba_sec (v : Nat) (b : Bool) : (c.setPba v b).sec = c.sec := rfl
@[simp] theorem Chip.setPba_tally (v : Nat) (b : Bool) : (c.setPba v b).tally = c.tally := rfl
@[simp] theorem Chip.setPba_tallyCap (v : Nat) (b : Bool) : (c.setPba v b).tallyCap = c.tallyCap := rfl
@[simp] theorem Chip.setPba_evls (v : Nat) (b : Bool) : (c.setPba v b).evls = c.evls := rfl
@[simp] theorem Chip.setPba_out (v : Nat) (b : Bool) : (c.setPba v b).out = c.out := rfl
@[simp] theorem Chip.setPba_free (v : Nat) (b : Bool) : (c.setPba v b).free = c.free := rfl

/-! #### setLevel: everything but evh -/
@[simp] theorem Chip.setLevel_regs (n : Nat) (b : Bool) : (c.setLevel n b).regs = c.regs := rfl
@[simp] theorem Chip.setLevel_arr (n : Nat) (b : Bool) : (c.setLevel n b).arr = c.arr := rfl
@[simp] theorem Chip.setLevel_cpu (n : Nat) (b : Bool) : (c.setLevel n b).cpu = c.cpu := rfl
@[simp] theorem Chip.setLevel_mem (n : Nat) (b : Bool) : (c.setLevel n b).mem = c.mem := rfl
@[simp] theorem Chip.setLevel_ctu (n : Nat) (b : Bool) : (c.setLevel n b).ctu = c.ctu := rfl
@[simp] theorem Chip.setLevel_hst (n : Nat) (b : Bool) : (c.setLevel n b).hst = c.hst := rfl
@[simp] theorem Chip.setLevel_ring (n : Nat) (b : Bool) : (c.setLevel n b).ring = c.ring := rfl
@[simp] theorem Chip.setLevel_fab (n : Nat) (b : Bool) : (c.setLevel n b).fab = c.fab := rfl
@[simp] theorem Chip.setLevel_col (n : Nat) (b : Bool) : (c.setLevel n b).col = c.col := rfl
@[simp] theorem Chip.setLevel_dbg (n : Nat) (b : Bool) : (c.setLevel n b).dbg = c.dbg := rfl
@[simp] theorem Chip.setLevel_pwr (n : Nat) (b : Bool) : (c.setLevel n b).pwr = c.pwr := rfl
@[simp] theorem Chip.setLevel_pins (n : Nat) (b : Bool) : (c.setLevel n b).pins = c.pins := rfl
@[simp] theorem Chip.setLevel_sec (n : Nat) (b : Bool) : (c.setLevel n b).sec = c.sec := rfl
@[simp] theorem Chip.setLevel_tally (n : Nat) (b : Bool) : (c.setLevel n b).tally = c.tally := rfl
@[simp] theorem Chip.setLevel_tallyCap (n : Nat) (b : Bool) : (c.setLevel n b).tallyCap = c.tallyCap := rfl
@[simp] theorem Chip.setLevel_evls (n : Nat) (b : Bool) : (c.setLevel n b).evls = c.evls := rfl
@[simp] theorem Chip.setLevel_out (n : Nat) (b : Bool) : (c.setLevel n b).out = c.out := rfl
@[simp] theorem Chip.setLevel_free (n : Nat) (b : Bool) : (c.setLevel n b).free = c.free := rfl

/-! #### putIsland: everything but pwr -/
@[simp] theorem Chip.putIsland_regs (i : Nat) (x : Island) : (c.putIsland i x).regs = c.regs := rfl
@[simp] theorem Chip.putIsland_arr (i : Nat) (x : Island) : (c.putIsland i x).arr = c.arr := rfl
@[simp] theorem Chip.putIsland_cpu (i : Nat) (x : Island) : (c.putIsland i x).cpu = c.cpu := rfl
@[simp] theorem Chip.putIsland_mem (i : Nat) (x : Island) : (c.putIsland i x).mem = c.mem := rfl
@[simp] theorem Chip.putIsland_ctu (i : Nat) (x : Island) : (c.putIsland i x).ctu = c.ctu := rfl
@[simp] theorem Chip.putIsland_evh (i : Nat) (x : Island) : (c.putIsland i x).evh = c.evh := rfl
@[simp] theorem Chip.putIsland_hst (i : Nat) (x : Island) : (c.putIsland i x).hst = c.hst := rfl
@[simp] theorem Chip.putIsland_ring (i : Nat) (x : Island) : (c.putIsland i x).ring = c.ring := rfl
@[simp] theorem Chip.putIsland_fab (i : Nat) (x : Island) : (c.putIsland i x).fab = c.fab := rfl
@[simp] theorem Chip.putIsland_col (i : Nat) (x : Island) : (c.putIsland i x).col = c.col := rfl
@[simp] theorem Chip.putIsland_dbg (i : Nat) (x : Island) : (c.putIsland i x).dbg = c.dbg := rfl
@[simp] theorem Chip.putIsland_pins (i : Nat) (x : Island) : (c.putIsland i x).pins = c.pins := rfl
@[simp] theorem Chip.putIsland_sec (i : Nat) (x : Island) : (c.putIsland i x).sec = c.sec := rfl
@[simp] theorem Chip.putIsland_tally (i : Nat) (x : Island) : (c.putIsland i x).tally = c.tally := rfl
@[simp] theorem Chip.putIsland_tallyCap (i : Nat) (x : Island) : (c.putIsland i x).tallyCap = c.tallyCap := rfl
@[simp] theorem Chip.putIsland_evls (i : Nat) (x : Island) : (c.putIsland i x).evls = c.evls := rfl
@[simp] theorem Chip.putIsland_out (i : Nat) (x : Island) : (c.putIsland i x).out = c.out := rfl
@[simp] theorem Chip.putIsland_free (i : Nat) (x : Island) : (c.putIsland i x).free = c.free := rfl

/-! #### setRail: everything but pwr -/
@[simp] theorem Chip.setRail_regs (r : Nat) (x : Rail) : (c.setRail r x).regs = c.regs := rfl
@[simp] theorem Chip.setRail_arr (r : Nat) (x : Rail) : (c.setRail r x).arr = c.arr := rfl
@[simp] theorem Chip.setRail_cpu (r : Nat) (x : Rail) : (c.setRail r x).cpu = c.cpu := rfl
@[simp] theorem Chip.setRail_mem (r : Nat) (x : Rail) : (c.setRail r x).mem = c.mem := rfl
@[simp] theorem Chip.setRail_ctu (r : Nat) (x : Rail) : (c.setRail r x).ctu = c.ctu := rfl
@[simp] theorem Chip.setRail_evh (r : Nat) (x : Rail) : (c.setRail r x).evh = c.evh := rfl
@[simp] theorem Chip.setRail_hst (r : Nat) (x : Rail) : (c.setRail r x).hst = c.hst := rfl
@[simp] theorem Chip.setRail_ring (r : Nat) (x : Rail) : (c.setRail r x).ring = c.ring := rfl
@[simp] theorem Chip.setRail_fab (r : Nat) (x : Rail) : (c.setRail r x).fab = c.fab := rfl
@[simp] theorem Chip.setRail_col (r : Nat) (x : Rail) : (c.setRail r x).col = c.col := rfl
@[simp] theorem Chip.setRail_dbg (r : Nat) (x : Rail) : (c.setRail r x).dbg = c.dbg := rfl
@[simp] theorem Chip.setRail_pins (r : Nat) (x : Rail) : (c.setRail r x).pins = c.pins := rfl
@[simp] theorem Chip.setRail_sec (r : Nat) (x : Rail) : (c.setRail r x).sec = c.sec := rfl
@[simp] theorem Chip.setRail_tally (r : Nat) (x : Rail) : (c.setRail r x).tally = c.tally := rfl
@[simp] theorem Chip.setRail_tallyCap (r : Nat) (x : Rail) : (c.setRail r x).tallyCap = c.tallyCap := rfl
@[simp] theorem Chip.setRail_evls (r : Nat) (x : Rail) : (c.setRail r x).evls = c.evls := rfl
@[simp] theorem Chip.setRail_out (r : Nat) (x : Rail) : (c.setRail r x).out = c.out := rfl
@[simp] theorem Chip.setRail_free (r : Nat) (x : Rail) : (c.setRail r x).free = c.free := rfl

/-! #### setPort: everything but dbg -/
@[simp] theorem Chip.setPort_regs (n : Nat) (v : Word) : (c.setPort n v).regs = c.regs := rfl
@[simp] theorem Chip.setPort_arr (n : Nat) (v : Word) : (c.setPort n v).arr = c.arr := rfl
@[simp] theorem Chip.setPort_cpu (n : Nat) (v : Word) : (c.setPort n v).cpu = c.cpu := rfl
@[simp] theorem Chip.setPort_mem (n : Nat) (v : Word) : (c.setPort n v).mem = c.mem := rfl
@[simp] theorem Chip.setPort_ctu (n : Nat) (v : Word) : (c.setPort n v).ctu = c.ctu := rfl
@[simp] theorem Chip.setPort_evh (n : Nat) (v : Word) : (c.setPort n v).evh = c.evh := rfl
@[simp] theorem Chip.setPort_hst (n : Nat) (v : Word) : (c.setPort n v).hst = c.hst := rfl
@[simp] theorem Chip.setPort_ring (n : Nat) (v : Word) : (c.setPort n v).ring = c.ring := rfl
@[simp] theorem Chip.setPort_fab (n : Nat) (v : Word) : (c.setPort n v).fab = c.fab := rfl
@[simp] theorem Chip.setPort_col (n : Nat) (v : Word) : (c.setPort n v).col = c.col := rfl
@[simp] theorem Chip.setPort_pwr (n : Nat) (v : Word) : (c.setPort n v).pwr = c.pwr := rfl
@[simp] theorem Chip.setPort_pins (n : Nat) (v : Word) : (c.setPort n v).pins = c.pins := rfl
@[simp] theorem Chip.setPort_sec (n : Nat) (v : Word) : (c.setPort n v).sec = c.sec := rfl
@[simp] theorem Chip.setPort_tally (n : Nat) (v : Word) : (c.setPort n v).tally = c.tally := rfl
@[simp] theorem Chip.setPort_tallyCap (n : Nat) (v : Word) : (c.setPort n v).tallyCap = c.tallyCap := rfl
@[simp] theorem Chip.setPort_evls (n : Nat) (v : Word) : (c.setPort n v).evls = c.evls := rfl
@[simp] theorem Chip.setPort_out (n : Nat) (v : Word) : (c.setPort n v).out = c.out := rfl
@[simp] theorem Chip.setPort_free (n : Nat) (v : Word) : (c.setPort n v).free = c.free := rfl

/-! #### setTermTx: everything but dbg -/
@[simp] theorem Chip.setTermTx_regs (k : Nat) (v : Option Word) : (c.setTermTx k v).regs = c.regs := rfl
@[simp] theorem Chip.setTermTx_arr (k : Nat) (v : Option Word) : (c.setTermTx k v).arr = c.arr := rfl
@[simp] theorem Chip.setTermTx_cpu (k : Nat) (v : Option Word) : (c.setTermTx k v).cpu = c.cpu := rfl
@[simp] theorem Chip.setTermTx_mem (k : Nat) (v : Option Word) : (c.setTermTx k v).mem = c.mem := rfl
@[simp] theorem Chip.setTermTx_ctu (k : Nat) (v : Option Word) : (c.setTermTx k v).ctu = c.ctu := rfl
@[simp] theorem Chip.setTermTx_evh (k : Nat) (v : Option Word) : (c.setTermTx k v).evh = c.evh := rfl
@[simp] theorem Chip.setTermTx_hst (k : Nat) (v : Option Word) : (c.setTermTx k v).hst = c.hst := rfl
@[simp] theorem Chip.setTermTx_ring (k : Nat) (v : Option Word) : (c.setTermTx k v).ring = c.ring := rfl
@[simp] theorem Chip.setTermTx_fab (k : Nat) (v : Option Word) : (c.setTermTx k v).fab = c.fab := rfl
@[simp] theorem Chip.setTermTx_col (k : Nat) (v : Option Word) : (c.setTermTx k v).col = c.col := rfl
@[simp] theorem Chip.setTermTx_pwr (k : Nat) (v : Option Word) : (c.setTermTx k v).pwr = c.pwr := rfl
@[simp] theorem Chip.setTermTx_pins (k : Nat) (v : Option Word) : (c.setTermTx k v).pins = c.pins := rfl
@[simp] theorem Chip.setTermTx_sec (k : Nat) (v : Option Word) : (c.setTermTx k v).sec = c.sec := rfl
@[simp] theorem Chip.setTermTx_tally (k : Nat) (v : Option Word) : (c.setTermTx k v).tally = c.tally := rfl
@[simp] theorem Chip.setTermTx_tallyCap (k : Nat) (v : Option Word) : (c.setTermTx k v).tallyCap = c.tallyCap := rfl
@[simp] theorem Chip.setTermTx_evls (k : Nat) (v : Option Word) : (c.setTermTx k v).evls = c.evls := rfl
@[simp] theorem Chip.setTermTx_out (k : Nat) (v : Option Word) : (c.setTermTx k v).out = c.out := rfl
@[simp] theorem Chip.setTermTx_free (k : Nat) (v : Option Word) : (c.setTermTx k v).free = c.free := rfl

/-! #### setTermRx: everything but dbg -/
@[simp] theorem Chip.setTermRx_regs (k : Nat) (v : Option Word) : (c.setTermRx k v).regs = c.regs := rfl
@[simp] theorem Chip.setTermRx_arr (k : Nat) (v : Option Word) : (c.setTermRx k v).arr = c.arr := rfl
@[simp] theorem Chip.setTermRx_cpu (k : Nat) (v : Option Word) : (c.setTermRx k v).cpu = c.cpu := rfl
@[simp] theorem Chip.setTermRx_mem (k : Nat) (v : Option Word) : (c.setTermRx k v).mem = c.mem := rfl
@[simp] theorem Chip.setTermRx_ctu (k : Nat) (v : Option Word) : (c.setTermRx k v).ctu = c.ctu := rfl
@[simp] theorem Chip.setTermRx_evh (k : Nat) (v : Option Word) : (c.setTermRx k v).evh = c.evh := rfl
@[simp] theorem Chip.setTermRx_hst (k : Nat) (v : Option Word) : (c.setTermRx k v).hst = c.hst := rfl
@[simp] theorem Chip.setTermRx_ring (k : Nat) (v : Option Word) : (c.setTermRx k v).ring = c.ring := rfl
@[simp] theorem Chip.setTermRx_fab (k : Nat) (v : Option Word) : (c.setTermRx k v).fab = c.fab := rfl
@[simp] theorem Chip.setTermRx_col (k : Nat) (v : Option Word) : (c.setTermRx k v).col = c.col := rfl
@[simp] theorem Chip.setTermRx_pwr (k : Nat) (v : Option Word) : (c.setTermRx k v).pwr = c.pwr := rfl
@[simp] theorem Chip.setTermRx_pins (k : Nat) (v : Option Word) : (c.setTermRx k v).pins = c.pins := rfl
@[simp] theorem Chip.setTermRx_sec (k : Nat) (v : Option Word) : (c.setTermRx k v).sec = c.sec := rfl
@[simp] theorem Chip.setTermRx_tally (k : Nat) (v : Option Word) : (c.setTermRx k v).tally = c.tally := rfl
@[simp] theorem Chip.setTermRx_tallyCap (k : Nat) (v : Option Word) : (c.setTermRx k v).tallyCap = c.tallyCap := rfl
@[simp] theorem Chip.setTermRx_evls (k : Nat) (v : Option Word) : (c.setTermRx k v).evls = c.evls := rfl
@[simp] theorem Chip.setTermRx_out (k : Nat) (v : Option Word) : (c.setTermRx k v).out = c.out := rfl
@[simp] theorem Chip.setTermRx_free (k : Nat) (v : Option Word) : (c.setTermRx k v).free = c.free := rfl

/-! #### refuse: everything but regs -/
@[simp] theorem Chip.refuse_arr (p s cause : Nat) : (c.refuse p s cause).arr = c.arr := by unfold Chip.refuse; split <;> rfl
@[simp] theorem Chip.refuse_cpu (p s cause : Nat) : (c.refuse p s cause).cpu = c.cpu := by unfold Chip.refuse; split <;> rfl
@[simp] theorem Chip.refuse_mem (p s cause : Nat) : (c.refuse p s cause).mem = c.mem := by unfold Chip.refuse; split <;> rfl
@[simp] theorem Chip.refuse_ctu (p s cause : Nat) : (c.refuse p s cause).ctu = c.ctu := by unfold Chip.refuse; split <;> rfl
@[simp] theorem Chip.refuse_evh (p s cause : Nat) : (c.refuse p s cause).evh = c.evh := by unfold Chip.refuse; split <;> rfl
@[simp] theorem Chip.refuse_hst (p s cause : Nat) : (c.refuse p s cause).hst = c.hst := by unfold Chip.refuse; split <;> rfl
@[simp] theorem Chip.refuse_ring (p s cause : Nat) : (c.refuse p s cause).ring = c.ring := by unfold Chip.refuse; split <;> rfl
@[simp] theorem Chip.refuse_fab (p s cause : Nat) : (c.refuse p s cause).fab = c.fab := by unfold Chip.refuse; split <;> rfl
@[simp] theorem Chip.refuse_col (p s cause : Nat) : (c.refuse p s cause).col = c.col := by unfold Chip.refuse; split <;> rfl
@[simp] theorem Chip.refuse_dbg (p s cause : Nat) : (c.refuse p s cause).dbg = c.dbg := by unfold Chip.refuse; split <;> rfl
@[simp] theorem Chip.refuse_pwr (p s cause : Nat) : (c.refuse p s cause).pwr = c.pwr := by unfold Chip.refuse; split <;> rfl
@[simp] theorem Chip.refuse_pins (p s cause : Nat) : (c.refuse p s cause).pins = c.pins := by unfold Chip.refuse; split <;> rfl
@[simp] theorem Chip.refuse_sec (p s cause : Nat) : (c.refuse p s cause).sec = c.sec := by unfold Chip.refuse; split <;> rfl
@[simp] theorem Chip.refuse_tally (p s cause : Nat) : (c.refuse p s cause).tally = c.tally := by unfold Chip.refuse; split <;> rfl
@[simp] theorem Chip.refuse_tallyCap (p s cause : Nat) : (c.refuse p s cause).tallyCap = c.tallyCap := by unfold Chip.refuse; split <;> rfl
@[simp] theorem Chip.refuse_evls (p s cause : Nat) : (c.refuse p s cause).evls = c.evls := by unfold Chip.refuse; split <;> rfl
@[simp] theorem Chip.refuse_out (p s cause : Nat) : (c.refuse p s cause).out = c.out := by unfold Chip.refuse; split <;> rfl
@[simp] theorem Chip.refuse_free (p s cause : Nat) : (c.refuse p s cause).free = c.free := by unfold Chip.refuse; split <;> rfl

/-! #### log: everything but regs -/
@[simp] theorem Chip.log_arr (p s : Nat) (more : Bool) (rec : Word) : (c.log p s more rec).arr = c.arr := by unfold Chip.log; split <;> (try split) <;> rfl
@[simp] theorem Chip.log_cpu (p s : Nat) (more : Bool) (rec : Word) : (c.log p s more rec).cpu = c.cpu := by unfold Chip.log; split <;> (try split) <;> rfl
@[simp] theorem Chip.log_mem (p s : Nat) (more : Bool) (rec : Word) : (c.log p s more rec).mem = c.mem := by unfold Chip.log; split <;> (try split) <;> rfl
@[simp] theorem Chip.log_ctu (p s : Nat) (more : Bool) (rec : Word) : (c.log p s more rec).ctu = c.ctu := by unfold Chip.log; split <;> (try split) <;> rfl
@[simp] theorem Chip.log_evh (p s : Nat) (more : Bool) (rec : Word) : (c.log p s more rec).evh = c.evh := by unfold Chip.log; split <;> (try split) <;> rfl
@[simp] theorem Chip.log_hst (p s : Nat) (more : Bool) (rec : Word) : (c.log p s more rec).hst = c.hst := by unfold Chip.log; split <;> (try split) <;> rfl
@[simp] theorem Chip.log_ring (p s : Nat) (more : Bool) (rec : Word) : (c.log p s more rec).ring = c.ring := by unfold Chip.log; split <;> (try split) <;> rfl
@[simp] theorem Chip.log_fab (p s : Nat) (more : Bool) (rec : Word) : (c.log p s more rec).fab = c.fab := by unfold Chip.log; split <;> (try split) <;> rfl
@[simp] theorem Chip.log_col (p s : Nat) (more : Bool) (rec : Word) : (c.log p s more rec).col = c.col := by unfold Chip.log; split <;> (try split) <;> rfl
@[simp] theorem Chip.log_dbg (p s : Nat) (more : Bool) (rec : Word) : (c.log p s more rec).dbg = c.dbg := by unfold Chip.log; split <;> (try split) <;> rfl
@[simp] theorem Chip.log_pwr (p s : Nat) (more : Bool) (rec : Word) : (c.log p s more rec).pwr = c.pwr := by unfold Chip.log; split <;> (try split) <;> rfl
@[simp] theorem Chip.log_pins (p s : Nat) (more : Bool) (rec : Word) : (c.log p s more rec).pins = c.pins := by unfold Chip.log; split <;> (try split) <;> rfl
@[simp] theorem Chip.log_sec (p s : Nat) (more : Bool) (rec : Word) : (c.log p s more rec).sec = c.sec := by unfold Chip.log; split <;> (try split) <;> rfl
@[simp] theorem Chip.log_tally (p s : Nat) (more : Bool) (rec : Word) : (c.log p s more rec).tally = c.tally := by unfold Chip.log; split <;> (try split) <;> rfl
@[simp] theorem Chip.log_tallyCap (p s : Nat) (more : Bool) (rec : Word) : (c.log p s more rec).tallyCap = c.tallyCap := by unfold Chip.log; split <;> (try split) <;> rfl
@[simp] theorem Chip.log_evls (p s : Nat) (more : Bool) (rec : Word) : (c.log p s more rec).evls = c.evls := by unfold Chip.log; split <;> (try split) <;> rfl
@[simp] theorem Chip.log_out (p s : Nat) (more : Bool) (rec : Word) : (c.log p s more rec).out = c.out := by unfold Chip.log; split <;> (try split) <;> rfl
@[simp] theorem Chip.log_free (p s : Nat) (more : Bool) (rec : Word) : (c.log p s more rec).free = c.free := by unfold Chip.log; split <;> (try split) <;> rfl

/-! #### sendEvl: everything but evls, out, pins -/
@[simp] theorem Chip.sendEvl_regs (p : Nat) (before : Bool) : (c.sendEvl p before).regs = c.regs := by unfold Chip.sendEvl; dsimp only; split <;> (try split) <;> (try split) <;> rfl
@[simp] theorem Chip.sendEvl_arr (p : Nat) (before : Bool) : (c.sendEvl p before).arr = c.arr := by unfold Chip.sendEvl; dsimp only; split <;> (try split) <;> (try split) <;> rfl
@[simp] theorem Chip.sendEvl_cpu (p : Nat) (before : Bool) : (c.sendEvl p before).cpu = c.cpu := by unfold Chip.sendEvl; dsimp only; split <;> (try split) <;> (try split) <;> rfl
@[simp] theorem Chip.sendEvl_mem (p : Nat) (before : Bool) : (c.sendEvl p before).mem = c.mem := by unfold Chip.sendEvl; dsimp only; split <;> (try split) <;> (try split) <;> rfl
@[simp] theorem Chip.sendEvl_ctu (p : Nat) (before : Bool) : (c.sendEvl p before).ctu = c.ctu := by unfold Chip.sendEvl; dsimp only; split <;> (try split) <;> (try split) <;> rfl
@[simp] theorem Chip.sendEvl_evh (p : Nat) (before : Bool) : (c.sendEvl p before).evh = c.evh := by unfold Chip.sendEvl; dsimp only; split <;> (try split) <;> (try split) <;> rfl
@[simp] theorem Chip.sendEvl_hst (p : Nat) (before : Bool) : (c.sendEvl p before).hst = c.hst := by unfold Chip.sendEvl; dsimp only; split <;> (try split) <;> (try split) <;> rfl
@[simp] theorem Chip.sendEvl_ring (p : Nat) (before : Bool) : (c.sendEvl p before).ring = c.ring := by unfold Chip.sendEvl; dsimp only; split <;> (try split) <;> (try split) <;> rfl
@[simp] theorem Chip.sendEvl_fab (p : Nat) (before : Bool) : (c.sendEvl p before).fab = c.fab := by unfold Chip.sendEvl; dsimp only; split <;> (try split) <;> (try split) <;> rfl
@[simp] theorem Chip.sendEvl_col (p : Nat) (before : Bool) : (c.sendEvl p before).col = c.col := by unfold Chip.sendEvl; dsimp only; split <;> (try split) <;> (try split) <;> rfl
@[simp] theorem Chip.sendEvl_dbg (p : Nat) (before : Bool) : (c.sendEvl p before).dbg = c.dbg := by unfold Chip.sendEvl; dsimp only; split <;> (try split) <;> (try split) <;> rfl
@[simp] theorem Chip.sendEvl_pwr (p : Nat) (before : Bool) : (c.sendEvl p before).pwr = c.pwr := by unfold Chip.sendEvl; dsimp only; split <;> (try split) <;> (try split) <;> rfl
@[simp] theorem Chip.sendEvl_sec (p : Nat) (before : Bool) : (c.sendEvl p before).sec = c.sec := by unfold Chip.sendEvl; dsimp only; split <;> (try split) <;> (try split) <;> rfl
@[simp] theorem Chip.sendEvl_tally (p : Nat) (before : Bool) : (c.sendEvl p before).tally = c.tally := by unfold Chip.sendEvl; dsimp only; split <;> (try split) <;> (try split) <;> rfl
@[simp] theorem Chip.sendEvl_tallyCap (p : Nat) (before : Bool) : (c.sendEvl p before).tallyCap = c.tallyCap := by unfold Chip.sendEvl; dsimp only; split <;> (try split) <;> (try split) <;> rfl
@[simp] theorem Chip.sendEvl_free (p : Nat) (before : Bool) : (c.sendEvl p before).free = c.free := by unfold Chip.sendEvl; dsimp only; split <;> (try split) <;> (try split) <;> rfl

/-! #### setEv: everything but regs, evls, out, pins -/
@[simp] theorem Chip.setEv_arr (p s : Nat) (v : Word) : (c.setEv p s v).arr = c.arr := by simp [Chip.setEv]
@[simp] theorem Chip.setEv_cpu (p s : Nat) (v : Word) : (c.setEv p s v).cpu = c.cpu := by simp [Chip.setEv]
@[simp] theorem Chip.setEv_mem (p s : Nat) (v : Word) : (c.setEv p s v).mem = c.mem := by simp [Chip.setEv]
@[simp] theorem Chip.setEv_ctu (p s : Nat) (v : Word) : (c.setEv p s v).ctu = c.ctu := by simp [Chip.setEv]
@[simp] theorem Chip.setEv_evh (p s : Nat) (v : Word) : (c.setEv p s v).evh = c.evh := by simp [Chip.setEv]
@[simp] theorem Chip.setEv_hst (p s : Nat) (v : Word) : (c.setEv p s v).hst = c.hst := by simp [Chip.setEv]
@[simp] theorem Chip.setEv_ring (p s : Nat) (v : Word) : (c.setEv p s v).ring = c.ring := by simp [Chip.setEv]
@[simp] theorem Chip.setEv_fab (p s : Nat) (v : Word) : (c.setEv p s v).fab = c.fab := by simp [Chip.setEv]
@[simp] theorem Chip.setEv_col (p s : Nat) (v : Word) : (c.setEv p s v).col = c.col := by simp [Chip.setEv]
@[simp] theorem Chip.setEv_dbg (p s : Nat) (v : Word) : (c.setEv p s v).dbg = c.dbg := by simp [Chip.setEv]
@[simp] theorem Chip.setEv_pwr (p s : Nat) (v : Word) : (c.setEv p s v).pwr = c.pwr := by simp [Chip.setEv]
@[simp] theorem Chip.setEv_sec (p s : Nat) (v : Word) : (c.setEv p s v).sec = c.sec := by simp [Chip.setEv]
@[simp] theorem Chip.setEv_tally (p s : Nat) (v : Word) : (c.setEv p s v).tally = c.tally := by simp [Chip.setEv]
@[simp] theorem Chip.setEv_tallyCap (p s : Nat) (v : Word) : (c.setEv p s v).tallyCap = c.tallyCap := by simp [Chip.setEv]
@[simp] theorem Chip.setEv_free (p s : Nat) (v : Word) : (c.setEv p s v).free = c.free := by simp [Chip.setEv]

/-! #### raiseMask: everything but regs, evls, out, pins -/
@[simp] theorem Chip.raiseMask_arr (p : Nat) (mask : Word) : (c.raiseMask p mask).arr = c.arr := by simp [Chip.raiseMask]
@[simp] theorem Chip.raiseMask_cpu (p : Nat) (mask : Word) : (c.raiseMask p mask).cpu = c.cpu := by simp [Chip.raiseMask]
@[simp] theorem Chip.raiseMask_mem (p : Nat) (mask : Word) : (c.raiseMask p mask).mem = c.mem := by simp [Chip.raiseMask]
@[simp] theorem Chip.raiseMask_ctu (p : Nat) (mask : Word) : (c.raiseMask p mask).ctu = c.ctu := by simp [Chip.raiseMask]
@[simp] theorem Chip.raiseMask_evh (p : Nat) (mask : Word) : (c.raiseMask p mask).evh = c.evh := by simp [Chip.raiseMask]
@[simp] theorem Chip.raiseMask_hst (p : Nat) (mask : Word) : (c.raiseMask p mask).hst = c.hst := by simp [Chip.raiseMask]
@[simp] theorem Chip.raiseMask_ring (p : Nat) (mask : Word) : (c.raiseMask p mask).ring = c.ring := by simp [Chip.raiseMask]
@[simp] theorem Chip.raiseMask_fab (p : Nat) (mask : Word) : (c.raiseMask p mask).fab = c.fab := by simp [Chip.raiseMask]
@[simp] theorem Chip.raiseMask_col (p : Nat) (mask : Word) : (c.raiseMask p mask).col = c.col := by simp [Chip.raiseMask]
@[simp] theorem Chip.raiseMask_dbg (p : Nat) (mask : Word) : (c.raiseMask p mask).dbg = c.dbg := by simp [Chip.raiseMask]
@[simp] theorem Chip.raiseMask_pwr (p : Nat) (mask : Word) : (c.raiseMask p mask).pwr = c.pwr := by simp [Chip.raiseMask]
@[simp] theorem Chip.raiseMask_sec (p : Nat) (mask : Word) : (c.raiseMask p mask).sec = c.sec := by simp [Chip.raiseMask]
@[simp] theorem Chip.raiseMask_tally (p : Nat) (mask : Word) : (c.raiseMask p mask).tally = c.tally := by simp [Chip.raiseMask]
@[simp] theorem Chip.raiseMask_tallyCap (p : Nat) (mask : Word) : (c.raiseMask p mask).tallyCap = c.tallyCap := by simp [Chip.raiseMask]
@[simp] theorem Chip.raiseMask_free (p : Nat) (mask : Word) : (c.raiseMask p mask).free = c.free := by simp [Chip.raiseMask]

/-! #### raise: everything but regs, evls, out, pins -/
@[simp] theorem Chip.raise_arr (p e : Nat) : (c.raise p e).arr = c.arr := by simp [Chip.raise]
@[simp] theorem Chip.raise_cpu (p e : Nat) : (c.raise p e).cpu = c.cpu := by simp [Chip.raise]
@[simp] theorem Chip.raise_mem (p e : Nat) : (c.raise p e).mem = c.mem := by simp [Chip.raise]
@[simp] theorem Chip.raise_ctu (p e : Nat) : (c.raise p e).ctu = c.ctu := by simp [Chip.raise]
@[simp] theorem Chip.raise_evh (p e : Nat) : (c.raise p e).evh = c.evh := by simp [Chip.raise]
@[simp] theorem Chip.raise_hst (p e : Nat) : (c.raise p e).hst = c.hst := by simp [Chip.raise]
@[simp] theorem Chip.raise_ring (p e : Nat) : (c.raise p e).ring = c.ring := by simp [Chip.raise]
@[simp] theorem Chip.raise_fab (p e : Nat) : (c.raise p e).fab = c.fab := by simp [Chip.raise]
@[simp] theorem Chip.raise_col (p e : Nat) : (c.raise p e).col = c.col := by simp [Chip.raise]
@[simp] theorem Chip.raise_dbg (p e : Nat) : (c.raise p e).dbg = c.dbg := by simp [Chip.raise]
@[simp] theorem Chip.raise_pwr (p e : Nat) : (c.raise p e).pwr = c.pwr := by simp [Chip.raise]
@[simp] theorem Chip.raise_sec (p e : Nat) : (c.raise p e).sec = c.sec := by simp [Chip.raise]
@[simp] theorem Chip.raise_tally (p e : Nat) : (c.raise p e).tally = c.tally := by simp [Chip.raise]
@[simp] theorem Chip.raise_tallyCap (p e : Nat) : (c.raise p e).tallyCap = c.tallyCap := by simp [Chip.raise]
@[simp] theorem Chip.raise_free (p e : Nat) : (c.raise p e).free = c.free := by simp [Chip.raise]

/-! ### Reads after writes -/

theorem regKey_inj (p q s t : Nat) (hs : s < 512) (ht : t < 512) (h : regKey p s = regKey q t) : p = q ∧ s = t := by
  unfold regKey at h
  omega

/-- A register after a write of a register. -/
theorem Chip.reg_setReg (p s q t : Nat) (v : Word) (hs : s < 512) (ht : t < 512) :
    (c.setReg p s v).reg q t = if q = p ∧ t = s then v else c.reg q t := by
  unfold Chip.reg Chip.setReg
  rw [SMap.get_set]
  by_cases h : regKey q t = regKey p s
  · obtain ⟨h1, h2⟩ := regKey_inj q p t s ht hs h
    simp [h1, h2]
  · rw [if_neg h, if_neg]
    rintro ⟨rfl, rfl⟩
    exact h rfl

@[simp] theorem Chip.reg_setReg_self (p s : Nat) (v : Word) : (c.setReg p s v).reg p s = v := by
  unfold Chip.reg Chip.setReg
  rw [SMap.get_set, if_pos rfl]

theorem Chip.reg_setFld (p s lo n v q t : Nat) (hs : s < 512) (ht : t < 512) :
    (c.setFld p s lo n v).reg q t = if q = p ∧ t = s then withField (c.reg p s) lo n v else c.reg q t :=
  c.reg_setReg p s q t _ hs ht

/-- A field reads as written. -/
theorem Chip.fld_setFld_self (p s lo n v : Nat) (h : lo + n ≤ 36) : (c.setFld p s lo n v).fld p s lo n = v % 2 ^ n := by
  unfold Chip.fld Chip.setFld
  rw [c.reg_setReg_self, fieldOf_withField_self _ _ _ _ h]

theorem Chip.flag_setFlag_self (p s b : Nat) (v : Bool) (h : b < 36) : (c.setFlag p s b v).flag p s b = v := by
  unfold Chip.flag Chip.setFlag Chip.setFld
  rw [c.reg_setReg_self, bitAt_withField_self _ _ _ h]

/-- A write of one field leaves every other field as it was, of the same slot or of another. -/
theorem Chip.fld_setFld_other (p s lo n v q t lo' n' : Nat) (hs : s < 512) (ht : t < 512) (h' : lo' + n' ≤ 36)
    (h : q = p → t = s → lo' + n' ≤ lo ∨ lo + n ≤ lo') : (c.setFld p s lo n v).fld q t lo' n' = c.fld q t lo' n' := by
  unfold Chip.fld
  rw [c.reg_setFld _ _ _ _ _ _ _ hs ht]
  split
  · rename_i e
    obtain ⟨rfl, rfl⟩ := e
    exact fieldOf_withField_other _ _ _ _ _ _ (h rfl rfl) h'
  · rfl

theorem Chip.flag_setFlag_other (p s b : Nat) (v : Bool) (q t b' : Nat) (hs : s < 512) (ht : t < 512)
    (h : q = p → t = s → b' ≠ b) : (c.setFlag p s b v).flag q t b' = c.flag q t b' := by
  unfold Chip.flag Chip.setFlag
  rw [c.reg_setFld _ _ _ _ _ _ _ hs ht]
  split
  · rename_i e
    obtain ⟨rfl, rfl⟩ := e
    exact bitAt_withField_other _ _ _ _ _ (by have := h rfl rfl; omega)
  · rfl

/-- An event output sends a level and leaves the registers as they are. -/
@[simp] theorem Chip.sendEvl_reg (p : Nat) (before : Bool) (q t : Nat) : (c.sendEvl p before).reg q t = c.reg q t := by
  unfold Chip.reg
  rw [Chip.sendEvl_regs]

/-- An event that occurs is pending, and no other slot changes (R54). -/
theorem Chip.reg_raise (p e q t : Nat) (ht : t < 512) :
    (c.raise p e).reg q t = if q = p ∧ t = 6 then c.reg p 6 ||| BitVec.ofNat 36 (2 ^ e) else c.reg q t := by
  unfold Chip.raise Chip.raiseMask Chip.setEv
  rw [Chip.sendEvl_reg, c.reg_setReg p 6 q t _ (by omega) ht]

theorem Chip.bit_raise (p e : Nat) (h : e < 36) : bitAt ((c.raise p e).reg p 6) e = true := by
  rw [c.reg_raise p e p 6 (by omega), if_pos ⟨rfl, rfl⟩]
  unfold bitAt
  rw [BitVec.getLsbD_or, BitVec.getLsbD_ofNat, Nat.testBit_two_pow_self]
  simp [h]

/-! ### Core registers -/

/-- A W register after a write: W0 discards it (R161). -/
theorem Chip.w_setW (k j : Nat) (r q : BitVec 5) (v : Word) :
    (c.setW k r v).w j q = if j = k ∧ q = r ∧ r ≠ 0 then v else c.w j q := by
  unfold Chip.setW Chip.w
  by_cases hr : r = 0
  · simp [hr]
  · by_cases hq : q = 0
    · subst hq
      rw [if_neg (fun h : j = k ∧ 0 = r ∧ r ≠ 0 => hr h.2.1.symm)]
      simp
    · simp only [hr, hq, if_false, ne_eq, not_false_eq_true, and_true]
      rw [SMap.get_set]
      have h1 := r.isLt
      have h2 := q.isLt
      by_cases h : j = k ∧ q = r
      · obtain ⟨rfl, rfl⟩ := h
        simp
      · rw [if_neg h, if_neg]
        intro e
        apply h
        have e1 : j = k := by omega
        subst e1
        exact ⟨rfl, BitVec.eq_of_toNat_eq (by omega)⟩

@[simp] theorem Chip.w_zero (k : Nat) : c.w k 0 = 0 := rfl

/-- A special register after a write of one. -/
theorem Chip.sr_setSr (k i j n : Nat) (v : Word) (hi : i < 32) (hn : n < 32) :
    (c.setSr k i v).sr j n = if j = k ∧ n = i then v else c.sr j n := by
  unfold Chip.sr Chip.setSr
  rw [SMap.get_set]
  by_cases h : j = k ∧ n = i
  · obtain ⟨rfl, rfl⟩ := h
    simp
  · rw [if_neg h, if_neg]
    intro e
    apply h
    omega

theorem Chip.core_setCore (k j : Nat) (x : Core) : (c.setCore k x).core j = if j = k then x else c.core j := by
  unfold Chip.core Chip.setCore
  rw [SMap.get_set]

@[simp] theorem Chip.w_setSr (k i j : Nat) (v : Word) (r : BitVec 5) : (c.setSr k i v).w j r = c.w j r := rfl
@[simp] theorem Chip.core_setSr (k i j : Nat) (v : Word) : (c.setSr k i v).core j = c.core j := rfl
@[simp] theorem Chip.w_setCore (k j : Nat) (x : Core) (r : BitVec 5) : (c.setCore k x).w j r = c.w j r := rfl
@[simp] theorem Chip.sr_setCore (k j n : Nat) (x : Core) : (c.setCore k x).sr j n = c.sr j n := rfl
@[simp] theorem Chip.sr_setW (k j n : Nat) (r : BitVec 5) (v : Word) : (c.setW k r v).sr j n = c.sr j n := by
  unfold Chip.setW; split <;> rfl
@[simp] theorem Chip.core_setW (k j : Nat) (r : BitVec 5) (v : Word) : (c.setW k r v).core j = c.core j := by
  unfold Chip.setW; split <;> rfl
@[simp] theorem Chip.reg_setSr (k i : Nat) (v : Word) (p s : Nat) : (c.setSr k i v).reg p s = c.reg p s := rfl
@[simp] theorem Chip.reg_setCore (k : Nat) (x : Core) (p s : Nat) : (c.setCore k x).reg p s = c.reg p s := rfl
@[simp] theorem Chip.reg_setW (k : Nat) (r : BitVec 5) (v : Word) (p s : Nat) : (c.setW k r v).reg p s = c.reg p s := by
  unfold Chip.setW; split <;> rfl

/-! ### Memory bytes, and the records of the engines -/

theorem Chip.cell_setCell (a b : Nat) (v : BitVec 10) : (c.setCell a v).cell b = if b = a then v else c.cell b := by
  unfold Chip.cell Chip.setCell
  rw [SMap.get_set]

theorem Chip.hbmCell_setHbmCell (d o e p : Nat) (v : BitVec 9) (ho : o < 2 ^ 36) (hp : p < 2 ^ 36) :
    (c.setHbmCell d o v).hbmCell e p = if e = d ∧ p = o then v else c.hbmCell e p := by
  unfold Chip.hbmCell Chip.setHbmCell
  rw [SMap.get_set]
  unfold hbmKey
  by_cases h : e = d ∧ p = o
  · obtain ⟨rfl, rfl⟩ := h
    simp
  · rw [if_neg h, if_neg]
    intro e
    apply h
    omega

@[simp] theorem Chip.hbm_setCell (a : Nat) (v : BitVec 10) : (c.setCell a v).mem.hbm = c.mem.hbm := rfl
@[simp] theorem Chip.banks_setHbmCell (d o : Nat) (v : BitVec 9) : (c.setHbmCell d o v).mem.banks = c.mem.banks := rfl

theorem Chip.mseq_setMseq (k j : Nat) (m : Mseq) : (c.setMseq k m).mseq j = if j = k then m else c.mseq j := by
  unfold Chip.mseq Chip.setMseq
  rw [SMap.get_set]

theorem Chip.chan_setChan_self (d p h : Nat) (x : Chan) : (c.setChan d p h x).chan d p h = x := by
  unfold Chip.chan Chip.setChan
  rw [SMap.get_set, if_pos rfl]

theorem Chip.tile_setTile (t u : Nat) (x : Tile) : (c.setTile t x).tile u = if u = t then x else c.tile u := by
  unfold Chip.tile Chip.setTile
  rw [SMap.get_set]

theorem Chip.port_setPort (n m : Nat) (v : Word) : (c.setPort n v).port m = if m = n then v else c.port m := by
  unfold Chip.port Chip.setPort
  rw [SMap.get_set]

theorem Chip.island_putIsland (i j : Nat) (x : Island) : (c.putIsland i x).island j = if j = i then x else c.island j := by
  unfold Chip.island Chip.putIsland
  rw [SMap.get_set]

theorem Chip.lamb_setLamb (f i g j : Nat) (v : LambRow) (hi : i < 36) (hj : j < 36) :
    (c.setLamb f i v).lamb g j = if g = f ∧ j = i then v else c.lamb g j := by
  unfold Chip.lamb Chip.setLamb
  rw [SMap.get_set]
  unfold rowKey
  by_cases h : g = f ∧ j = i
  · obtain ⟨rfl, rfl⟩ := h
    simp
  · rw [if_neg h, if_neg]
    intro e
    apply h
    omega

theorem Chip.slice_setSlice_self (f q i : Nat) (v : BitVec 40) : (c.setSlice f q i v).slice f q i = v := by
  unfold Chip.slice Chip.setSlice
  by_cases h : isWorking q = true
  · simp [h]
  · simp [h]

end Sys2Proof.Machine
end

