-- ==== Sys2Proof/Laws/Memory.lean ====
section
/-!
SUPPORT. The canonical form of the memories, kept by every memory operation; what each of them leaves as it was; and the form at reset.
-/
namespace Sys2Proof.Machine

/-- What a fold of updates keeps, if each keeps it. -/
theorem foldl_keeps {α : Type} {P : Chip → Prop} (l : List α) (f : Chip → α → Chip) (h : ∀ c x, P c → P (f c x)) (c : Chip) (hc : P c) :
    P (l.foldl f c) := by
  induction l generalizing c with
  | nil => exact hc
  | cons x l ih => exact ih _ (h c x hc)

/-- What a fold of updates leaves as it was, if each does. -/
theorem foldl_same {α β : Type} (g : Chip → β) (l : List α) (f : Chip → α → Chip) (h : ∀ c x, g (f c x) = g c) (c : Chip) :
    g (l.foldl f c) = g c :=
  foldl_keeps (P := fun d => g d = g c) l f (fun d x hd => (h d x).trans hd) c rfl

/-- State.reset's memories have the canonical form. -/
theorem reset_wf : Memory.wf State.reset.chip.mem = true := rfl

theorem init_wf : Memory.wf Mem.init = true := rfl

variable {c : Chip}

theorem setCell_wf (h : Memory.wf c.mem = true) (a : Nat) (v : BitVec 10) : Memory.wf (c.setCell a v).mem = true := by
  simp only [Memory.wf, Bool.and_eq_true] at h ⊢
  exact ⟨SMap.wf_set _ _ _ _ h.1, h.2⟩

theorem setHbmCell_wf (h : Memory.wf c.mem = true) (d o : Nat) (v : BitVec 9) : Memory.wf (c.setHbmCell d o v).mem = true := by
  simp only [Memory.wf, Bool.and_eq_true] at h ⊢
  exact ⟨h.1, SMap.wf_set _ _ _ _ h.2⟩

/-- The form speaks of the banks and of HBM alone. -/
theorem wf_of_same {m m' : Mem} (hb : m'.banks = m.banks) (hh : m'.hbm = m.hbm) (h : Memory.wf m = true) : Memory.wf m' = true := by
  simpa [Memory.wf, hb, hh] using h

/-- What a port keeps of its results is no part of the form. -/
theorem ports_wf (h : Memory.wf c.mem = true) (l : List PortRes) : Memory.wf { c.mem with ports := l } = true := h

/-! ### Scratch banks -/

@[simp] theorem logAll_mem (c : Chip) (p s : Nat) (m : Bool) (l : List Word) : (c.logAll p s m l).mem = c.mem :=
  foldl_same Chip.mem l _ (fun c r => c.log_mem p s m r) c

@[simp] theorem bankParity_mem (c : Chip) (b a src : Nat) (bad : List Nat) : (c.bankParity b a src bad).mem = c.mem := by
  unfold Chip.bankParity
  split <;> simp

/-- A read of a bank writes nothing. -/
@[simp] theorem bankRead_mem (c : Chip) (b a src : Nat) (ns : List Nat) : (c.bankRead b a src ns).2.2.mem = c.mem := by
  simp [Chip.bankRead]

@[simp] theorem endResv_mem (c : Chip) (a : Nat) : (c.endResv a).mem = c.mem := by
  refine foldl_same Chip.mem _ _ (fun c k => ?_) c
  split <;> simp

theorem bankWrite_wf (h : Memory.wf c.mem = true) (a : Nat) (v : Word) (ns : List Nat) (inv : Bool) :
    Memory.wf (c.bankWrite a v ns inv).mem = true := by
  unfold Chip.bankWrite
  rw [endResv_mem]
  exact foldl_keeps (P := fun d => Memory.wf d.mem = true) ns _ (fun d n hd => setCell_wf hd _ _) c h

/-- A write to a bank leaves HBM as it was. -/
@[simp] theorem bankWrite_hbm (c : Chip) (a : Nat) (v : Word) (ns : List Nat) (inv : Bool) : (c.bankWrite a v ns inv).mem.hbm = c.mem.hbm := by
  unfold Chip.bankWrite
  rw [endResv_mem]
  refine foldl_same (fun d => d.mem.hbm) ns _ (fun d n => ?_) c
  rfl

theorem bankClear_wf (h : Memory.wf c.mem = true) (b : Nat) : Memory.wf (c.bankClear b).mem = true := by
  unfold Chip.bankClear
  refine foldl_keeps (P := fun d => Memory.wf d.mem = true) _ _ (fun d k hd => ?_) _ ?_
  · dsimp only
    split
    · split <;> simpa using hd
    · exact hd
  · simp only [Memory.wf, Bool.and_eq_true] at h ⊢
    exact ⟨SMap.wf_drop _ _ _ h.1, h.2⟩

theorem secureWipe_wf (h : Memory.wf c.mem = true) : Memory.wf (secureWipe c).mem = true :=
  wf_of_same rfl rfl (bankClear_wf h 7)

theorem bankWake_wf (h : Memory.wf c.mem = true) (b : Nat) : Memory.wf (bankWake b c).mem = true := by
  unfold bankWake
  split
  · exact secureWipe_wf (bankClear_wf h b)
  · exact bankClear_wf h b

@[simp] theorem reserve_mem (c : Chip) (k a : Nat) (bad : Bool) : (c.reserve k a bad).mem = c.mem := by
  unfold Chip.reserve
  split <;> simp

theorem storeCond_wf (h : Memory.wf c.mem = true) (k a : Nat) (v : Word) : Memory.wf (c.storeCond k a v).2.mem = true := by
  unfold Chip.storeCond
  extract_lets x spend
  have hs (d : Chip) : (spend d).mem = d.mem := by simp [spend]
  split
  · rw [hs]
    exact bankWrite_wf h _ _ _ _
  · split
    · rw [hs]
      exact h
    · exact h

theorem bankDo_wf (h : Memory.wf c.mem = true) (b src : Nat) (a : BankAcc) : Memory.wf (bankDo b src a c).2.mem = true := by
  cases a with
  | read w => simpa [bankDo] using h
  | write w v ns => exact bankWrite_wf h _ _ _ _
  | aadd w v => exact bankWrite_wf (by simpa using h) _ _ _ _
  | aswap w v => exact bankWrite_wf (by simpa using h) _ _ _ _
  | post w v ns => exact bankWrite_wf h _ _ _ _
  | ldr w k => simpa [bankDo] using h
  | stc w k v => exact storeCond_wf h _ _ _

theorem bankCycle_wf (h : Memory.wf c.mem = true) (b : Nat) (owner ring : Option BankAcc) : Memory.wf (bankCycle b owner ring c).mem = true := by
  have go (own : Bool) (a : Option BankAcc) (reads : Bool) (x : List PortRes × Chip) (hx : Memory.wf x.2.mem = true) :
      Memory.wf (match a with
        | some a =>
          if a.isRead == reads then
            (x.1 ++ portRes b own (bankDo b (if own then 0 else 1) a x.2).1, (bankDo b (if own then 0 else 1) a x.2).2)
          else x
        | none => x).2.mem = true := by
    split
    · split
      · exact bankDo_wf hx _ _ _
      · exact hx
    · exact hx
  unfold bankCycle
  refine ports_wf ?_ _
  exact go true owner false _ (go false ring false _ (go false ring true _ (go true owner true ([], c) h)))

@[simp] theorem stopDrop_mem (c : Chip) (s : Nat × Nat) : (stopDrop s c).mem = c.mem := by simp [stopDrop]

@[simp] theorem bankDropw_mem (c : Chip) (b : Nat) : (bankDropw b c).mem = c.mem := by simp [bankDropw]

theorem bankRefuse_wf (h : Memory.wf c.mem = true) (b : Nat) (own : Bool) (a : Option BankAcc) :
    Memory.wf (bankRefuse b own a c).mem = true := by
  unfold bankRefuse
  split
  · exact h
  · split <;> simpa using h
  · exact h

theorem bankAccess_wf (h : Memory.wf c.mem = true) (b : Nat) (owner ring : Option BankAcc) : Memory.wf (bankAccess b owner ring c).mem = true := by
  unfold bankAccess
  dsimp only
  split
  · exact bankRefuse_wf (bankRefuse_wf h _ _ _) _ _ _
  · split
    · exact h
    · exact bankCycle_wf h _ _ _

theorem bankRelease_wf (h : Memory.wf c.mem = true) (b : Nat) : Memory.wf (bankRelease b c).mem = true := by
  unfold bankRelease
  split
  · exact h
  · exact foldl_keeps (P := fun d => Memory.wf d.mem = true) _ _ (fun _ x hd => bankCycle_wf hd _ _ _) _ h

/-! ### HBM -/

@[simp] theorem hbmLog_mem (c : Chip) (d o src req : Nat) : (c.hbmLog d o src req).mem = c.mem := by
  unfold Chip.hbmLog
  dsimp only
  split <;> simp

/-- A read of HBM writes nothing. -/
@[simp] theorem hbmRead_mem (c : Chip) (d o n src req : Nat) (sev : List Sev) : (c.hbmRead d o n src req sev).2.mem = c.mem := by
  unfold Chip.hbmRead
  dsimp only
  rw [foldl_same Chip.mem _ _ (fun c a => by simp), foldl_same Chip.mem _ _ (fun c x => by split <;> simp)]

theorem hbmWrite_wf (h : Memory.wf c.mem = true) (d o req : Nat) (data : List (BitVec 9)) : Memory.wf (c.hbmWrite d o req data).mem = true := by
  refine foldl_keeps (P := fun d => Memory.wf d.mem = true) _ _ (fun c x hd => ?_) c h
  dsimp only
  split
  · rw [hbmLog_mem]
    exact setHbmCell_wf hd _ _ _
  · exact setHbmCell_wf hd _ _ _

/-- A write to HBM leaves the banks as they were. -/
@[simp] theorem hbmWrite_banks (c : Chip) (d o req : Nat) (data : List (BitVec 9)) : (c.hbmWrite d o req data).mem.banks = c.mem.banks := by
  refine foldl_same (fun d => d.mem.banks) _ _ (fun c x => ?_) c
  dsimp only
  split <;> simp

/-! ### What serves a request -/

theorem bankPut_wf (h : Memory.wf c.mem = true) (a : Nat) (data : List (BitVec 9)) (mask : List Nat) :
    Memory.wf (bankPut a data mask c).mem = true :=
  foldl_keeps (P := fun d => Memory.wf d.mem = true) _ _ (fun _ _ hd => bankWrite_wf (bankWrite_wf hd _ _ _ _) _ _ _ _) c h

@[simp] theorem bankRun_mem (c : Chip) (b src a n : Nat) : (bankRun b src a n c).2.mem = c.mem := by
  unfold bankRun
  dsimp only
  refine foldl_same Chip.mem _ _ (fun c w => ?_) c
  exact bankRead_mem c b w.1 src w.2

theorem bankAtomic_wf (h : Memory.wf c.mem = true) (opc b src a i : Nat) (v : Word) : Memory.wf (bankAtomic opc b src a i v c).2.mem = true := by
  unfold bankAtomic
  dsimp only
  split
  · exact bankWrite_wf (by simpa using h) _ _ _ _
  · split
    · exact bankWrite_wf (by simpa using h) _ _ _ _
    · split
      · simpa using h
      · exact storeCond_wf h _ _ _

@[simp] theorem refuseAt_mem (c : Chip) (s : Nat × Nat) (opc st : Nat) : (refuseAt s opc st c).2.mem = c.mem := by
  unfold refuseAt
  split <;> simp

theorem bankServe_wf (h : Memory.wf c.mem = true) (opc b : Nat) (own : Bool) (k : Pkt) : Memory.wf (bankServe opc b own k c).2.mem = true := by
  unfold bankServe
  extract_lets a n s atomic
  by_cases h1 : b = 7 ∧ own = false
  · simpa only [h1, and_self, ↓reduceIte, refuseAt_mem] using h
  rw [if_neg h1]
  split
  · simpa using h
  · split
    · split
      · dsimp only
        split <;> simpa [bankDrop] using h
      · exact h
    · split
      · exact h
      · split
        · exact h
        · split
          · exact (bankRun_mem c b (if own then 0 else 1) a n).symm ▸ h
          · split
            · exact h
            · split
              · exact bankPut_wf h _ _ _
              · exact bankAtomic_wf h _ _ _ _ _ _

theorem hbmServe_wf (h : Memory.wf c.mem = true) (opc : Nat) (k : Pkt) (sev : List Sev) : Memory.wf (hbmServe opc k sev c).2.mem = true := by
  unfold hbmServe
  dsimp only
  split
  · exact h
  · split
    · exact h
    · split
      · split <;> simpa using h
      · split
        · simpa using h
        · split
          · split <;> simpa using h
          · split
            · simpa using h
            · exact hbmWrite_wf h _ _ _ _

/-! ### Resets -/

theorem deviceReset_wf (h : Memory.wf c.mem = true) (cause : Nat) : Memory.wf (deviceReset cause c).mem = true := by
  unfold deviceReset
  split
  · simp only [recordCause]
    split <;> simpa using h
  · rfl

theorem powerOnReset_wf (c : Chip) : Memory.wf (powerOnReset c).mem = true := rfl

end Sys2Proof.Machine
end

