-- ==== Sys2Proof/Laws/Scalar.lean ====
section
/-!
SUPPORT. What a core does with the word that it is about to execute: the step of the core in terms of the instruction's own effect.
-/
namespace Sys2Proof.Machine

variable {c c' : Chip} {k : Nat} {t : Tag} {w : Word}

/-- No comparator matches while none is enabled. -/
theorem cmpMatch_quiet (h : c.quiet k = true) (kinds : List Nat) (lo n : Nat) : cmpMatch c k kinds lo n = [] := by
  unfold cmpMatch
  rw [List.filter_eq_nil_iff]
  intro j hj
  have := List.all_eq_true.mp h j hj
  simp only [Bool.not_eq_true'] at this
  intro hc
  simp only [Bool.and_eq_true] at hc
  exact absurd hc.1.1.1.1 (Bool.eq_false_iff.mp this)

@[simp] theorem cmpAct_nil (k : Nat) (c : Chip) : cmpAct k [] c = (0, c) := rfl

/-- A data access meets no comparator while none is enabled. -/
theorem dataCmp_quiet (h : c.quiet k = true) (on : Bool) (kinds : List Nat) (a n : Nat) (f : Chip → SRes) :
    dataCmp k on kinds a n c f = f c := by
  unfold dataCmp
  split
  · rfl
  · simp [cmpMatch_quiet h]

/-- A word held with good parity in a bank that is on is fetched. -/
theorem fetchAt_holds {pc : Word} (h : c.holds k pc w = true) : fetchAt k pc c = .word w := by
  simp only [Chip.holds, Bool.and_eq_true, decide_eq_true_eq, Bool.not_eq_true', beq_iff_eq, List.isEmpty_iff] at h
  obtain ⟨⟨⟨⟨h1, h2⟩, h3⟩, h4⟩, h5⟩ := h
  have h6 : ¬ (0o17777774 < pc.toNat) := by omega
  simp [fetchAt, h6, h2, h3, Chip.bankRead, h4, h5]

/-- What `ready` says, in parts. -/
theorem ready_parts (h : c.ready k t w = true) :
    mayRun c k = true ∧ (c.core k).xact = Xact.none ∧ (c.core k).stepping = false ∧ c.quiet k = true ∧
      fetchAt k (c.pc k) c = .word w ∧ tagOf w = some t ∧ scalarLegal t w = true := by
  simp only [Chip.ready, Chip.about, Bool.and_eq_true, Bool.not_eq_true', beq_iff_eq] at h
  obtain ⟨⟨⟨⟨⟨⟨h1, h0⟩, h2⟩, h3⟩, h4⟩, h5⟩, h6⟩ := h
  exact ⟨h1, h0, h2, h3, fetchAt_holds h4, h5, h6⟩

/-- The step of a core that is ready is the run of its instruction. -/
theorem coreStep_ready (h : c.ready k t w = true) :
    coreStep k (some t) c = coreStep.run k t w (c.pc k) (!(c.core k).skip) c := by
  obtain ⟨h1, h0, h2, h3, h4, h5, h6⟩ := ready_parts h
  simp [coreStep, h1, h0, h4, h5, h6, cmpMatch_quiet h3]

/-- An instruction that completes: its effect, and the word after it follows. -/
theorem coreStep_done (h : c.ready k t w = true) (ha : ∀ o, t ≠ .arr o)
    (he : execOp k t (!(c.core k).skip) w 0 c = .done c') : coreStep k (some t) c = retireOne k (advance k 4 c') := by
  rw [coreStep_ready h]
  cases t <;> first | (simp only [coreStep.run, he]; done) | exact absurd rfl (ha _)

/-- A taken branch or jump. -/
theorem coreStep_jump {target : Word} (h : c.ready k t w = true) (ha : ∀ o, t ≠ .arr o) (hr : t ≠ .sys 4) (hl : t ≠ .loop)
    (he : execOp k t (!(c.core k).skip) w 0 c = .jump target c') :
    coreStep k (some t) c = retireOne k (jumpTo k target c') := by
  rw [coreStep_ready h]
  cases t <;> first | (simp [coreStep.run, he] at * ; done) | (simp only [coreStep.run, he]; simp [hr, hl]; done) | exact absurd rfl (ha _)

/-- An instruction that traps. -/
theorem coreStep_trap {code : Nat} {v : Word} (h : c.ready k t w = true) (ha : ∀ o, t ≠ .arr o)
    (he : execOp k t (!(c.core k).skip) w 0 c = .trap code v c') :
    coreStep k (some t) c = trapAt k code (c.pc k) v c' := by
  rw [coreStep_ready h]
  cases t <;> first | (simp only [coreStep.run, he]; done) | exact absurd rfl (ha _)

/-- What waits or holds PC changes nothing else. -/
theorem coreStep_stay (h : c.ready k t w = true) (ha : ∀ o, t ≠ .arr o)
    (he : execOp k t (!(c.core k).skip) w 0 c = .stay c') : coreStep k (some t) c = c' := by
  rw [coreStep_ready h]
  cases t <;> first | (simp only [coreStep.run, he]; done) | exact absurd rfl (ha _)

theorem coreStep_wait (h : c.ready k t w = true) (ha : ∀ o, t ≠ .arr o)
    (he : execOp k t (!(c.core k).skip) w 0 c = .wait) : coreStep k (some t) c = c := by
  rw [coreStep_ready h]
  cases t <;> first | (simp only [coreStep.run, he]; done) | exact absurd rfl (ha _)

/-- An array instruction whose words are both held: its issue, and the start of its routine outside LINKED. -/
theorem coreStep_array {o : AOp} {tail : Word} (h : c.ready k (.arr o) w = true) (ht : c.holds k (c.pc k + 4) tail = true)
    (he : exArr k o w tail c = .done c') :
    coreStep k (some (.arr o)) c =
      (let d := retireOne k (advance k 8 c'); if d.linked then d else mseqStart k d) := by
  rw [coreStep_ready h]
  have hf : fetchAt k (c.pc k + 4#36) c = .word tail := fetchAt_holds ht
  simp [coreStep.run, hf, he]

/-- A core that runs has power. -/
theorem on_of_mayRun (h : mayRun c k = true) : c.pwr.off = false := by
  simp only [mayRun, canGoOn, Bool.and_eq_true, Bool.not_eq_true'] at h
  exact h.1.1.1.1.1.1.1

/-- A scalar command of a core that has power is its step. -/
theorem scalar_run (s : State) (k : Fin 4) (t : Tag) (h : s.chip.pwr.off = false) :
    s.scalar k t = .next (s.on (coreStep k.val (some t))) := by
  simp [State.scalar, State.live, State.run, Chip.live, h, State.on]

theorem array_run (s : State) (k : Fin 4) (o : AOp) (h : s.chip.pwr.off = false) :
    s.array k o = .next (s.on (coreStep k.val (some (.arr o)))) := by
  simp [State.array, State.live, State.run, Chip.live, h, State.on]

/-- A command of a block that has power. -/
theorem live_run (s : State) (f : Chip → Chip) (h : s.chip.pwr.off = false) : s.live f = .next (s.on f) := by
  simp [State.live, State.run, Chip.live, h, State.on]

theorem aon_run (s : State) (f : Chip → Chip) (h : s.chip.pwr.aonLost = false) : s.aon f = .next (s.on f) := by
  simp [State.aon, State.run, h, State.on]

/-- A write that nothing refuses has its effect. -/
theorem write_run (s : State) (who : Who) (p n : Nat) (v : Word) (h : s.chip.takes who p n v = true) :
    s.write who p n v = .next (s.on (writeEffect who p n v)) := by
  simp only [Chip.takes, Bool.and_eq_true, Bool.not_eq_true', beq_iff_eq, bne_iff_ne, ne_eq] at h
  obtain ⟨⟨⟨⟨⟨⟨⟨⟨h1, h2⟩, h3⟩, h4⟩, h5⟩, h6⟩, h7⟩, h8⟩, h9⟩ := h
  cases who <;> simp_all [State.write, State.run, pageWrite, writeSlot, State.on]

end Sys2Proof.Machine
end

