-- ==== Sys2Proof/Laws/Step.lean ====
section
/-!
SUPPORT. Every command answers a next state that differs in the device alone, and what a step does with the queue.
-/
namespace Sys2Proof.Machine

theorem aon_on (f : Chip → Chip) (s : State) : ∃ g : Chip → Chip, s.aon f = .next (s.on g) :=
  ⟨fun c => if c.pwr.aonLost then c else f c, rfl⟩

/-- Every command is one update of the device; it never faults and is never refused. -/
theorem exec_on (i : Instr) (s : State) : ∃ f : Chip → Chip, exec i s = .next (s.on f) := by
  cases i <;> first | exact ⟨_, rfl⟩ | exact aon_on _ s

/-- What a step answers: the front command's update, or the tick of an empty queue. -/
theorem step_on (s : State) : ∃ f : Chip → Chip, step s = .next { chip := f s.chip, pending := s.pending.tail } := by
  cases h : s.pending with
  | nil => 
    refine ⟨Chip.live tick, ?_⟩
    simp [step, h, idle]
  | cons i rest =>
    obtain ⟨f, hf⟩ := exec_on i { s with pending := rest }
    refine ⟨f, ?_⟩
    simp [step, h, hf, State.on]

end Sys2Proof.Machine
end

