-- ==== Sys2Proof/Tests/Slice0.lean ====
section
/-!
SUPPORT. Tests: for each obligation with hypotheses a state that meets them (wit_), one command at a time with values worked by
hand from the spec (test_), and an ill-formed command for each check of WellFormed (test_wf_).
-/
namespace Sys2Proof.Tests
open Sys2Proof.Machine

set_option maxRecDepth 100000
set_option Elab.async false

/-! ### States and words that the tests use -/

/-- A device that has left OFF, in SPLIT, with flocks formed over one fold column a die; core 0 runs. -/
def up : Chip :=
  let c := { Chip.reset with pwr := { Pwr.init with off := false, causes := [] } }
  let c := ((c.setMode modeSplit).setFlag pgHub 18 7 false).setFld pgFlock 16 20 2 2
  let c := (c.setFlag (pgBw 0) 3 0 true).setFlag (pgBw 0) 2 0 true
  (c.setReg (pgDie 0) 16 0xFFFFFFFF0).setReg (pgDie 1) 16 0xFFFFFFFF0
/-- A word with opcode, RD, RA, RB and FUNC (Table 6-3), and one with a 19-bit immediate in place of the last two. -/
def wordOf5 (op rd ra rb f : Nat) : Word := BitVec.ofNat 36 (op * 2 ^ 29 + rd * 2 ^ 24 + ra * 2 ^ 19 + rb * 2 ^ 14 + f)
def immWord (op rd ra imm : Nat) : Word := BitVec.ofNat 36 (op * 2 ^ 29 + rd * 2 ^ 24 + ra * 2 ^ 19 + imm)
/-- `c` with the word `w` at PC of core 0, and W4 to W11 at 4 to 11. -/
def at0 (w : Word) (c : Chip) : Chip :=
  let c := (c.bankWrite (bankBase 0 + (c.pc 0).toNat) w allNonets false)
  (List.range 8).foldl (fun c i => c.setW 0 (BitVec.ofNat 5 (4 + i)) (BitVec.ofNat 36 (4 + i))) c
/-- The state with device `c` and an empty queue. -/
def st (c : Chip) : State := ⟨c, []⟩
/-- What a test looks at in the state that a command answers. -/
def sees (r : Host.Outcome State Fault Refusal) (f : Chip → Bool) : Bool :=
  match r with
  | .next s => f s.chip
  | _ => false

/-! ### The scalar core -/

theorem wit_AluShiftImmediate_alu : ∀ f < 17, (at0 (wordOf5 1 4 6 (if f = 4 then 0 else 8) f) up).ready 0 (.alu f) (wordOf5 1 4 6 (if f = 4 then 0 else 8) f) = true ∧
    (at0 (wordOf5 1 4 6 (if f = 4 then 0 else 8) (f + 32)) up).ready 0 (.alu f) (wordOf5 1 4 6 (if f = 4 then 0 else 8) (f + 32)) = true := by decide +kernel
theorem wit_AluShiftImmediate_shift : ∀ f < 5, (at0 (wordOf5 2 4 6 8 f) up).ready 0 (.shift f) (wordOf5 2 4 6 8 f) = true ∧
    (at0 (wordOf5 2 4 6 0 (f + 16 + 511 * 32)) up).ready 0 (.shift f) (wordOf5 2 4 6 0 (f + 16 + 511 * 32)) = true := by decide +kernel
theorem wit_AluShiftImmediate_imm : ∀ op < 7, (at0 (immWord (16 + op) 4 (if op = 6 then 0 else 6) 0x7ffff) up).ready 0 (.imm (16 + op))
    (immWord (16 + op) 4 (if op = 6 then 0 else 6) 0x7ffff) = true := by decide +kernel
theorem wit_MulDiv : ∀ f < 8, (at0 (wordOf5 3 4 8 10 f) up).ready 0 (.muldiv f) (wordOf5 3 4 8 10 f) = true := by decide +kernel
theorem wit_Division : (0 : Nat) < 36 ∧ (3 : BitVec 36) ≠ 0 := by decide
theorem wit_Floats_fpu : ∀ f < 8, (at0 (wordOf5 4 4 6 (if f < 6 then 8 else 0) (f * 64)) up).ready 0 (.fpu f) (wordOf5 4 4 6 (if f < 6 then 8 else 0) (f * 64)) = true := by
  decide +kernel
theorem wit_Floats_fcvt : ∀ f < 6, (at0 (wordOf5 5 4 6 0 (f * 256)) up).ready 0 (.fcvt f) (wordOf5 5 4 6 0 (f * 256)) = true := by decide +kernel
theorem wit_FloatSpecial : isNaN fmt32 0x7fc00000 = true ∧ isNaN fmt32 0x3f800000 = false ∧ 0x3f800000 % fmt32.signBit ≠ 0 ∧
    0x3f800000 % fmt32.signBit ≠ fmt32.infBits ∧ 0x80000000 % fmt32.signBit = 0 := by decide +kernel
/-- Every answer of an access is OK, and `bad` says whether a nonet fails; and one of them is not OK. -/
def okAns (r : Option (List Srv) × Chip) (bad : Bool) : Bool := match r.1 with | some rs => allOk rs && anyBad rs == bad | none => false
def failAns (r : Option (List Srv) × Chip) : Bool := match r.1 with | some rs => !allOk rs | none => false
/-- The requests of a load and of a store of `n` nonets at `a`. -/
def reads (a n : Nat) (c : Chip) : List (Nat × Pkt) := if n < 8 then [coreRd 0 a n c] else [coreRd 0 a 4 c, coreRd 0 (a + 4) 4 c]
def writes (a n : Nat) (c : Chip) : List (Nat × Pkt) := if n < 8 then [coreWr 0 a n (c.w 0 4) c] else [coreWr 0 a 4 (c.w 0 4) c, coreWr 0 (a + 4) 4 (c.w 0 5) c]
/-- W8 names word 0 of bank 1, which clears: an access there waits. -/
def waiting1 (c : Chip) : Chip := (c.setW 0 8 (BitVec.ofNat 36 (bankBase 1))).setFlag (pgBank 1) 3 0 true
theorem wit_Loads : ∀ op < 6, let w := immWord (24 + op) 4 8 0
    let c := at0 w up
    let d := c.bankWrite 8 0 [0] true
    let n := memWidth (24 + op)
    c.ready 0 (.load (24 + op)) w = true ∧ (c.w 0 (wRa w) + sextImm w).toNat = 8 ∧ 8 % n = 0 ∧ inPages 8 = false ∧
    okAns (coreAccess 0 w (reads 8 n c) c) false = true ∧ d.ready 0 (.load (24 + op)) w = true ∧
    okAns (coreAccess 0 w (reads 8 n d) d) true = true := by decide +kernel
theorem wit_Loads_wait : let w := immWord 0o34 4 8 0
    let c := waiting1 (at0 w up)
    c.ready 0 (.load 0o34) w = true ∧ (coreAccess 0 w (reads (bankBase 1) 4 c) c).1 = none := by decide +kernel
theorem wit_Stores : ∀ i < 4, let w := immWord (32 + i) 4 8 0
    let c := at0 w up
    c.ready 0 (.store (32 + i)) w = true ∧ memWidth (32 + i) = 2 ^ i ∧ okAns (coreAccess 0 w (writes 8 (2 ^ i) c) c) false = true := by
  decide +kernel
theorem wit_Stores_wait : let w := immWord 0o42 4 8 0
    let c := waiting1 (at0 w up)
    c.ready 0 (.store 0o42) w = true ∧ (coreAccess 0 w (writes (bankBase 1) 4 c) c).1 = none := by decide +kernel
theorem wit_Atomics : ∀ p ∈ [(0, opLdr), (1, opStc), (2, opAadd), (3, opAswap)], let w := wordOf5 6 4 8 (if p.1 = 0 then 0 else 5) p.1
    let c := at0 w up
    let d := waiting1 c
    let data := if p.1 = 0 then [] else nonetsOf (c.w 0 (wRb w))
    c.ready 0 (.atom p.1) w = true ∧ okAns (coreAccess 0 w [coreAt 0 p.2 8 data c] c) false = true ∧
    d.ready 0 (.atom p.1) w = true ∧ (coreAccess 0 w [coreAt 0 p.2 (bankBase 1) data d] d).1 = none := by decide +kernel
theorem wit_OwnBank : bankOn up 0 = true ∧ bankClearing up 0 = false ∧ (∀ i < 4, nonetBad (up.cell (8 + i)) = false) ∧ up.badNonets 8 = [] ∧
    (up.core 0).resv ≠ some 8 ∧ (up.core 0).xact = Xact.none ∧ bankWiping up 0 = false ∧ ((up.setCore 0 { Core.init with resv := some 8 }).core 0).resv = some 8 ∧
    bankOn (up.setCore 0 { Core.init with resv := some 8 }) 0 = true ∧
    bankBase 3 + 4 * bankWords 3 - 4 + 4 ≤ bankBase 3 + 4 * bankWords 3 := by decide +kernel
theorem wit_MemoryTraps : ∀ p ∈ [(0o35, Tag.load 0o35), (0o42, .store 0o42), (0o57, .jalr)], let w := immWord p.1 4 8 1
    (at0 w up).ready 0 p.2 w = true ∧ ((at0 w up).w 0 (wRa w) + sextImm w).toNat % 4 ≠ 0 := by decide +kernel
theorem wit_MemoryTraps_atom : ∀ f < 4, let w := wordOf5 6 4 7 0 f
    (at0 w up).ready 0 (.atom f) w = true ∧ ((at0 w up).w 0 (wRa w)).toNat % 4 ≠ 0 := by decide +kernel
/-- An address that no window of Table 2-1 holds is answered with an error. -/
theorem wit_MemoryTraps_error : ∀ p ∈ [(0o34, Tag.load 0o34), (0o42, .store 0o42)], let w := immWord p.1 4 3 0
    let c := (at0 w up).setW 0 3 0xffffffff0
    c.ready 0 p.2 w = true ∧ failAns (coreAccess 0 w (if p.1 = 0o34 then reads 0xffffffff0 4 c else writes 0xffffffff0 4 c) c) = true := by decide +kernel
/-- A double of a register page (R49, R177), and an atomic whose target answers an error. -/
theorem wit_MemoryTraps_page : ∀ p ∈ [(0o35, Tag.load 0o35), (0o43, .store 0o43)], let w := immWord p.1 4 3 0
    let c := (at0 w up).setW 0 3 0o200000000
    let a := (c.w 0 (wRa w) + sextImm w).toNat
    c.ready 0 p.2 w = true ∧ a % memWidth p.1 = 0 ∧ memWidth p.1 = 8 ∧ inPages a = true := by decide +kernel
theorem wit_MemoryTraps_atom_error : ∀ p ∈ [(0, opLdr), (1, opStc), (2, opAadd), (3, opAswap)], let w := wordOf5 6 4 3 (if p.1 = 0 then 0 else 5) p.1
    let c := (at0 w up).setW 0 3 0xffffffff0
    c.ready 0 (.atom p.1) w = true ∧ (c.w 0 (wRa w)).toNat % 4 = 0 ∧
    failAns (coreAccess 0 w [coreAt 0 p.2 0xffffffff0 (if p.1 = 0 then [] else nonetsOf (c.w 0 (wRb w))) c] c) = true := by decide +kernel
theorem wit_Branches : ∀ i < 10, let w := immWord (40 + i) (if i = 6 then 0 else 4) 8 4
    (at0 w up).ready 0 (if i < 6 then .branch (40 + i) else if i = 6 then .loop else if i = 7 then .jalr else if i = 8 then .j else .jal) w = true := by
  decide +kernel
theorem wit_Branches_loop : (at0 (immWord 0o56 0 8 4) up).psw 0 pswLA = false ∧ (at0 (immWord 0o56 0 8 4) up).w 0 8 ≠ 0 ∧ zextImm (immWord 0o56 0 8 4) ≠ 0 ∧
    (at0 (immWord 0o56 0 0 4) up).ready 0 .loop (immWord 0o56 0 0 4) = true ∧ (at0 (immWord 0o56 0 0 4) up).w 0 0 = 0 := by decide +kernel
theorem wit_System_plain : ∀ f ∈ [0, 3, 4, 5, 6, 7, 8, 9], let w := wordOf5 7 0 0 0 f
    (at0 w up).ready 0 (.sys f) w = true ∧ arrayDrained (at0 w up) 0 = true ∧ topLevel (at0 w up) 0 = none ∧ gaBit (at0 w up) 0 0 = false := by decide +kernel
theorem wit_System_mfs : ∀ i ∈ [1, 0o20, 0o22, 0o25], let w := wordOf5 7 4 0 0 (1 + 64 * i)
    let c := (at0 w up).setTermRx 0 (some 5)
    c.ready 0 (.sys 1) w = true ∧ fn w 6 8 = i ∧ redPending c 0 i = false ∧ fpswPending c 0 = false ∧ c.termRx 0 = some 5 := by decide +kernel
theorem wit_System_mts : ∀ i ∈ [1, 2, 7, 0o13, 0o24], let w := wordOf5 7 0 5 0 (2 + 64 * i)
    (at0 w up).ready 0 (.sys 2) w = true ∧ fieldOf ((at0 w up).w 0 5) 4 5 ≤ 16 ∧ (at0 w up).termTx 0 = none := by decide +kernel
/-- Source 1,146 (a timer of the event hub) is high and its route gives core 0 the line of level 3. -/
def lined (c : Chip) : Chip := { c with evh := { c.evh with levels := [(1146, true)], routes := [(1146, 0x980000)] } }
theorem wit_System_wait : let w := wordOf5 7 0 0 0 5
    let c := lined (at0 w up)
    c.ready 0 (.sys 5) w = true ∧ topLevel c 0 = some 3 ∧ c.psw 0 pswIE = false := by decide +kernel
theorem wit_System_brk : let w := wordOf5 7 0 0 0 9
    let c := (at0 w up).setReg pgGander 2 1
    c.ready 0 (.sys 9) w = true ∧ gaBit c 0 0 = true := by decide +kernel

/-! ### Traps, events of the cores, runs and watchdogs -/

theorem wit_Trap : up.psw 0 pswTH = false ∧ up.sr 0 srPSW &&& ~~~(0x3ff : Word) = 0 ∧ (up.setPsw 0 pswTH true).psw 0 pswTH = true := by decide +kernel
theorem wit_CoreEvents_interrupt : let c := (lined up).setPsw 0 pswIE true
    mayRun c 0 = true ∧ (c.core 0).halt = none ∧ (c.core 0).stepping = false ∧ c.psw 0 pswIE = true ∧ topLevel c 0 = some 3 ∧ (c.core 0).xact = Xact.none := by decide +kernel
theorem wit_CoreEvents_check : let c := up.setCore 0 { Core.init with mchk := [⟨8, 5, false⟩] }
    c.running 0 = true ∧ c.halted 0 = false ∧ c.dfault 0 = false ∧ (c.core 0).cop = none ∧ divHold c 0 = false ∧ (c.core 0).mchk = [⟨8, 5, false⟩] ∧
    (c.core 0).stop = false ∧ (c.core 0).xact = Xact.none ∧ (c.core 0).halt = none ∧ c.behind 0 = false := by decide +kernel
/-- Tile 2 is configured and bound to core 0. -/
def bound (c : Chip) : Chip := (c.setReg (pgBw 0) 17 0o12).setFld (pgTile 2) 3 0 2 3
theorem wit_CoreEvents_cop : let w := wordOf5 0o160 4 5 6 0
    let c := bound (at0 w up)
    c.ready 0 .cop w = true ∧ c.linked = false ∧ c.flag (pgBw 0) 17 3 = true ∧ tileOff c 2 = false ∧ 2 ≤ c.tileState 2 ∧ c.fld (pgBw 0) 17 0 3 = 2 := by
  decide +kernel
/-- A coprocessor request of core 0 that has been sent to tile 2. -/
def request0 : CopReq := { num := 0, func := 0, rd := 4, va := 0, vb := 0, vd := 0, tile := 2, sent := true, taken := false, tag := 1, vc := false }
theorem wit_CoreEvents_timeout : let c := up.setCore 0 { Core.init with cop := some request0 }
    (c.core 0).cop = some request0 ∧ c.linked = false ∧ c.halted 0 = false ∧ c.dbg.cmd = none := by decide +kernel
theorem wit_CoreEvents_unassigned : (at0 0 up).about 0 0 = true ∧ tagOf 0 = none := by decide +kernel
theorem wit_Run_release : let c := up.setFlag (pgBw 1) 2 0 false
    c.takes .hub (pgBw 1) 2 1 = true ∧ (c.core 1).stop = false ∧ c.running 1 = false ∧ gaBit (coreRelease 1 (c.setFlag (pgBw 1) 2 0 true)) 1 4 = false := by
  decide +kernel
theorem wit_Run_stop : up.takes (.core 1) (pgBw 0) 2 0 = true ∧ up.running 0 = true ∧ up.istop 0 = false ∧ up.mHeld 0 = false := by decide +kernel
theorem wit_Run_hold : let c := up.setCore 0 { Core.init with stop := true }
    (c.core 0).stop = true ∧ (c.core 0).rerun = false ∧ (c.core 0).cop = none ∧ (c.core 0).xact = Xact.none ∧ (c.core 0).queue = [] ∧
    c.istop 0 = false ∧ c.mHeld 0 = false ∧ (c.mseq 0).active = false ∧ (c.mseq 0).voted = none ∧ (c.mseq 0).reds = [] := by decide +kernel
theorem wit_Watchdog : let c := (up.setFlag (pgWdg 0) 2 0 true).setReg (pgWdg 0) 16 1000
    wdgCounts c 0 = true ∧ c.fld (pgWdg 0) 17 0 24 = 0 ∧ wdgHalt c 0 = false ∧ wdgStage c 0 = 0 ∧
    c.takes (.core 0) (pgWdg 0) 18 1 = true ∧ c.takes (.core 0) (pgWdg 0) 16 1000 = true := by decide +kernel

/-! ### The array -/

/-- Head and tail words of an array instruction (Table 4-2). -/
def arrHead (o : AOp) (n d md : Nat) : Word := (AFields.head o.code { n := BitVec.ofNat 12 n, d := BitVec.ofNat 13 d, a := 0, b := 0, md := BitVec.ofNat 12 md })
def arrTail (a b md : Nat) : Word := AFields.tail { n := 0, d := 0, a := BitVec.ofNat 13 a, b := BitVec.ofNat 13 b, md := BitVec.ofNat 12 md }
/-- Core 0 with the two words of an array instruction at PC. -/
def arr0 (h t : Word) : Chip := (at0 h up).bankWrite 4 t allNonets false
/-- An opcode of the array format that Table 4-3 does not assign, with its tail word. -/
theorem wit_CoreEvents_unassigned_array : let h : Word := BitVec.ofNat 36 (0o673 * 2 ^ 27)
    (arr0 h 0).about 0 h = true ∧ tagOf h = none ∧ 0o140 ≤ wOp h ∧ wOp h ≤ 0o157 ∧ (arr0 h 0).holds 0 ((arr0 h 0).pc 0 + 4) 0 = true := by decide +kernel
/-- Field values that pass the issue checks of an operation: n, D, A, B, MD. -/
def goodFields (o : AOp) : Nat × Nat × Nat × Nat × Nat :=
  match o with
  | .mul | .div => (9, 100, 0, 200, 0)
  | .gmul | .gdiv => (36, 100, 0, 200, 0)
  | .fadd | .fsub | .fmul | .fdiv | .fma => (32, 100, 0, 200, 0)
  | .fcmp => (32, 0, 0, 200, 0)
  | .neg | .gneg | .shl | .shr | .rot | .gshl | .gshr | .grot | .move => (9, 100, 0, 0, 0)
  | .rowb | .colb | .adds | .subs | .gadds => (9, 100, 0, 0, 0)
  | .bcast | .gbcast => (9, 100, 0, 0, 0)
  | .cmp | .gcmp => (9, 0, 0, 200, 0)
  | .cmps | .gcmps => (9, 0, 0, 0, 0)
  | .mset | .mand | .melse | .bell | .count | .first | .pfence => (0, 0, 0, 0, 0)
  | .mld => (0, 0, 0, 0, 0)
  | .mst => (0, 100, 0, 0, 0)
  | .rlog => (0, 2, 0, 0x222, 0)
  | .max | .min => (9, 0, 100, 0, 0)
  | .twist => (9, 100, 0, 0, 0)
  | .pres => (1, 0, 0, 0, 0)
  | .mpush | .mpop => (0, 0, 0, 0, 0)
  | _ => (9, 100, 0, 200, 0)
def goodHead (o : AOp) : Word := let x := goodFields o; arrHead o x.1 x.2.1 x.2.2.2.2
def goodTail (o : AOp) : Word := let x := goodFields o; arrTail x.2.2.1 x.2.2.2.1 x.2.2.2.2
theorem wit_ArrayIssue : ∀ o ∈ AOp.all,
    let h := goodHead o
    let t := goodTail o
    let c := arr0 h t
    c.ready 0 (.arr o) h = true ∧ c.holds 0 (c.pc 0 + 4) t = true ∧ issueLegal o (fieldsOf h t) (captureS c 0 o (fieldsOf h t)) = true ∧ c.istop 0 = false ∧
    (c.core 0).queue.length < 64 ∧ c.psw 0 pswLA = false := by decide +kernel
theorem wit_ArrayIllegal_bad : let h := arrHead .add 9 4464 0
    (arr0 h (arrTail 0 9 0)).ready 0 (.arr .add) h = true ∧ (arr0 h (arrTail 0 9 0)).holds 0 4 (arrTail 0 9 0) = true ∧
    issueLegal .add (fieldsOf h (arrTail 0 9 0)) (captureS (arr0 h (arrTail 0 9 0)) 0 .add (fieldsOf h (arrTail 0 9 0))) = false := by decide +kernel
theorem wit_ArrayIllegal_depth : let c (o : AOp) : Chip := arr0 (arrHead o 1 0 0) (arrTail 0 0 0)
    (∀ o ∈ [AOp.mpush, .mpop, .melse], (c o).ready 0 (.arr o) (arrHead o 1 0 0) = true ∧ (c o).holds 0 4 0 = true ∧ (c o).sr 0 srMSDEPTH = 0 ∧
      issueLegal o (fieldsOf (arrHead o 1 0 0) 0) 0 = true) ∧
    ((c .mpush).setSr 0 srMSDEPTH 16).ready 0 (.arr .mpush) (arrHead .mpush 1 0 0) = true ∧
    16 ≤ (((c .mpush).setSr 0 srMSDEPTH 16).sr 0 srMSDEPTH).toNat := by decide +kernel
theorem wit_ArrayIllegal_stopped : let h := goodHead .add
    let c := (arr0 h (goodTail .add)).setFlag (pgBw 0) 3 4 true
    c.ready 0 (.arr .add) h = true ∧ c.istop 0 = true ∧ c.behind 0 = false := by decide +kernel
/-- An instruction of 9 bits with SGN = 0 and FL = 0, and one with SGN = 1. -/
theorem wit_Serial : let x := fieldsOf (arrHead .add 9 0 0) (arrTail 0 0 0)
    let y := fieldsOf (arrHead .div 9 0 0x200) (arrTail 0 0 0x200)
    x.len = 9 ∧ x.sgn = false ∧ x.fl = 0 ∧ y.len = 9 ∧ y.sgn = true := by decide +kernel
theorem wit_Masked : let b := BeatWord.mk 0 0 0 0 0 0 0 0 0 false false false 0 0 0 false false 0
    b.all = false ∧ bitAt { LambRow.formed with m := 0 }.m 35 = false ∧ sliceBad (mkSlice 5 0) = 0 := by decide +kernel

/-! ### Beats and microsequencers -/

/-- The frame of beat 0 with an all-zero beat word waits on the bridge of die 0. -/
def framed : Chip := (up.setReg (pgMseq 0) 35 1).setBridge 0 (some (frameOf 0 0))
theorem wit_Beat_frame : framed.onBridge (foldDie 0) = some (frameOf 0 0) ∧ framed.foldDead 0 = false ∧ framed.rxOf 0 = none ∧
    0 ∈ activeFolds framed (foldDie 0) ∧ frameWord (frameOf 0 0 ^^^ 0) (expectedBeat framed (foldDie 0)) = some 0 ∧
    frameWord (frameOf 0 0 ^^^ 1) (expectedBeat framed (foldDie 0)) = none := by decide +kernel
theorem wit_Beat_stall : (framed.setRx 0 (some 0)).rxOf 0 = some 0 ∧ (framed.setRx 0 (some 0)).foldDead 0 = false := by decide +kernel
theorem wit_Beat_beat : let c := (List.range 24).foldl (fun c f => c.setRx f (some 0)) framed
    c.linked = false ∧ c.mode ≠ modeQuiescent ∧ (c.onBridge 0).isSome = true ∧ c.halted 0 = false ∧ activeFolds c 0 ≠ [] ∧
    (∀ f ∈ activeFolds c 0, c.rxOf f = some 0 ∧ c.foldDead f = false) ∧ (c.mseq 0).fence = false ∧
    ((c.modMseq 0 (fun m => { m with fence := true })).mseq 0).fence = true := by decide +kernel
theorem wit_Beat_clear : let c := { up with pwr := { up.pwr with clearing := true, target := some 2 } }
    c.pwr.clearing = true ∧ c.pwr.booting = false ∧ c.pwr.target = some 2 := by decide +kernel
theorem wit_Beat_deliver : let r : Red := ⟨2, true, 5, 0, true⟩
    ((up.setMseq 0 { Mseq.init with reds := [r] }).mseq 0).reds = [r] := by decide +kernel
/-- Microsequencer 0 runs at address 4,096, which holds the microword `w`. -/
def micro (w : Mword) : Chip := setCs 0 4096 w (((up.setFlag (pgMseq 0) 3 3 true).setMseq 0 { Mseq.init with active := true, upc := 4096 }).setFlag (pgMseq 0) 3 1 true)
theorem wit_Micro : ∀ op ∈ [1, 2, 3, 4, 5], let w : Mword := BitVec.ofNat 144 (op * 2 ^ 140)
    let c := if op = 3 then (micro w).modMseq 0 (fun m => { m with mstack := [4097] }) else micro w
    mseqReady c 0 = true ∧ (c.mseq 0).ending = false ∧ csStored c 0 (c.mseq 0).upc.toNat = csStore w ∧ csBad (csStore w) = none ∧
    (csStore w).setWidth 144 = w ∧ w.seqop = op ∧ (c.mseq 0).rom = none ∧ microLegal (c.mseq 0) w = true ∧ c.onBridge 0 = none ∧ bellPending c 0 = false := by decide +kernel
theorem wit_Micro_beat : let w : Mword := BitVec.ofNat 144 (2 ^ 140 + 2 ^ 110)
    w.beat = true ∧ mseqReady (micro w) 0 = true ∧ microLegal ((micro w).mseq 0) w = true ∧ (micro w).onBridge 0 = none := by decide +kernel
theorem wit_Micro_reserved : mseqReady (micro 0) 0 = true ∧ csBad (csStored (micro 0) 0 4096) = none ∧ (0 : Mword).seqop = 0 := by decide +kernel
theorem wit_Micro_ending : let c := (micro 0).modMseq 0 (fun m => { m with ending := true })
    mseqReady c 0 = true ∧ (c.mseq 0).ending = true ∧ (c.mseq 0).rom = none ∧ c.onBridge 0 = none := by decide +kernel
/-- A routine of the ROM is under way. -/
theorem wit_Micro_rom : let c := (micro 0).modMseq 0 (fun m => { m with rom := some ⟨1, none⟩ })
    mseqReady c 0 = true ∧ (c.mseq 0).rom.isSome = true := by decide +kernel
theorem wit_Micro_commit : let c := (up.setMode modeMaint).setReg (pgMseq 0) 29 4096
    c.takes .thonos (pgMseq 0) 33 5 = true ∧ c.fld (pgMseq 0) 29 0 13 = 4096 := by decide +kernel
/-- An issued LOGIC. -/
def item0 : QItem := { QItem.none with head := goodHead .logic, tail := goodTail .logic }
def queued (k : Nat) (c : Chip) : Chip := c.setCore k { c.core k with queue := [item0] }
theorem wit_Sequencer_start : let c := queued 0 up
    c.linked = false ∧ inPres c 0 = false ∧ (c.core 0).flush = false ∧ (c.core 0).queue = [item0] ∧ mayStart c 0 item0 = true := by decide +kernel
theorem wit_Sequencer_commands : let h := up.setFlag (pgMseq 0) 3 2 true
    up.takes .hub (pgMseq 0) 2 1 = true ∧ (∀ v ∈ [2, 3, 4, 5], h.takes .hub (pgMseq 0) 2 (BitVec.ofNat 36 v) = true) ∧
    reservedFor h 0 [svcRange h 0] = false ∧ h.halted 0 = false := by decide +kernel
theorem wit_Sequencer_take : let c := up.setMseq 0 { Mseq.init with preempt := true }
    let d := up.setMseq 0 { Mseq.init with preempt := true, active := true, atCkpt := true }
    c.pwr.target = none ∧ c.linked = false ∧ (c.mseq 0).preempt = true ∧ c.mHeld 0 = false ∧ c.mStopped 0 = false ∧ (c.mseq 0).active = false ∧
    d.pwr.target = none ∧ d.linked = false ∧ (d.mseq 0).preempt = true ∧ d.mHeld 0 = false ∧ d.mStopped 0 = false ∧ (d.mseq 0).active = true ∧
    (d.mseq 0).atCkpt = true ∧ (d.mseq 0).rom = none ∧ d.onBridge 0 = none := by decide +kernel
/-- LINKED, in agreement, with the window `w`. -/
def voting (w : Word) (c : Chip) : Chip := ((c.setMode modeLinked).setFld pgVote 3 0 2 1).setReg pgVote 16 w
theorem wit_Sequencer_vote : let c := cores4.foldl (fun c k => queued k c) (voting 5 up)
    c.linked = true ∧ c.voteState = 1 ∧ (c.mseq 0).voted = none ∧ (∀ j < 4, (c.core j).queue.head? = some item0) ∧ c.fld pgVote 16 0 24 ≠ 0 := by
  decide +kernel
theorem wit_Sequencer_voteCop : let q := { request0 with sent := false }
    let c := cores4.foldl (fun c k => c.setCore k { c.core k with cop := some q }) (voting 5 up)
    c.linked = true ∧ c.voteState = 1 ∧ (∀ j < 4, (c.core j).cop = some q) ∧ c.fld pgVote 16 0 24 ≠ 0 := by decide +kernel
theorem wit_Sequencer_missing : let c := [1, 2, 3].foldl (fun c k => queued k c) (voting 5 up)
    c.linked = true ∧ c.voteState = 1 ∧ (c.mseq 0).voted = none ∧ c.fld pgVote 16 0 24 ≠ 0 ∧ (c.core 0).queue = [] ∧
    (∀ j < 4, j ≠ 0 → (c.core j).queue.head? = some item0) := by decide +kernel
theorem wit_Sequencer_noWindow : (voting 0 up).fld pgVote 16 0 24 = 0 := by decide +kernel
theorem wit_Vote : majority [some item0, some item0, none, some item0] = some (item0, [2]) ∧ majority [some item0, some item0, none, none] = none := by
  decide +kernel

/-! ### Corner turn -/

/-- Channel 0 of CTU 0 of die 0 holds `x`, with its table in the bank of core 0. -/
def turning (x : Chan) : Chip := (((up.setReg (pgHbmc 0 0) 3 1).setReg (pgHbmc 0 1) 3 1).setReg (pgCtu 0 0) 16 0o1000).setChan 0 0 0 x
/-- Descriptor words: layout in bits 35 to 33 of word 2, one row of one plane. -/
def desc0 (outbound : Bool) : List Word := [0, 64, BitVec.ofNat 36 (5 * 2 ^ 32 + outbound.toNat * 2 ^ 30 + 1), BitVec.ofNat 36 (100 * 2 ^ 23 + 2 ^ 10), 0, 0, 0]
theorem wit_Turn_start : (turning Chan.idle).takes .hub (pgCtu 0 0) 17 0x8001 = true := by decide +kernel
theorem wit_Turn_abort : let c := turning { Chan.idle with st := 4, words := desc0 false, resv := true }
    c.takes .hub (pgCtu 0 0) 18 1 = true ∧ (c.chan 0 0 0).st = 4 ∧ (c.chan 0 0 0).code = none ∧ (c.chan 0 0 0).outbound = false := by decide +kernel
theorem wit_Turn_grant : let c := turning { Chan.idle with st := 1, order := 0 }
    (c.chan 0 0 0).st = 1 ∧ (c.chan 0 0 0).code = none ∧ slotsUsed c 0 0 < 4 := by decide +kernel
theorem wit_Turn_fetch : let c := turning { Chan.idle with st := 2 }
    let a := (chanGather 0 0 0 (opRd, request (.ctu 0) true (entryAddr c 0 0 0 0) 32 [] [] c) c).1
    (c.chan 0 0 0).st = 2 ∧ (c.chan 0 0 0).code = none ∧ 0 < (c.dieCols 0).length ∧ a.isSome = true ∧
    a.bind entryWords = some [0, 0, 0, 0, 0, 0, 0, 0] := by decide +kernel
theorem wit_Turn_check : chanCheck { Chan.idle with st := 2, words := [0, 0, 0, 0, 0, 0, 0] } = none ∧ chanCheck { Chan.idle with words := desc0 true } = none := by
  cases h : Config.isE192 <;> unfold chanCheck dieSize <;> simp only [h] <;> decide +kernel
theorem wit_Turn_place : let c := (turning { Chan.idle with st := 3, words := desc0 false, order := 1 }).setChan 0 0 1 { Chan.idle with st := 1, code := some 0o13 }
    (c.chan 0 0 0).st = 3 ∧ (c.chan 0 0 0).code = none ∧ busyRanges c 0 = [] ∧ (∀ o < 16, o ≠ 0 → (c.chan 0 0 o).order < (c.chan 0 0 0).order →
      ((c.chan 0 0 o).st = 1 ∨ (c.chan 0 0 o).st = 2 → (c.chan 0 0 o).code ≠ none) ∧
      (3 ≤ (c.chan 0 0 o).st → chansOverlap (c.chan 0 0 0) (c.chan 0 0 o) = false)) := by decide +kernel
theorem wit_Turn_fill : let c := turning { Chan.idle with st := 4, words := desc0 false }
    let x := c.chan 0 0 0
    x.fill / x.pieceOctets < x.pieces ∧ hbmUp c 0 = true ∧ x.outbound = false ∧ x.code = none ∧ x.fill % x.pieceOctets = 0 ∧
    queuedBlock c 0 0 x.haddr (chunkLen x.haddr x.pieceOctets 0) = false ∧ stagingRoom c 0 0 x.slicesPer = true := by decide +kernel
theorem wit_Turn_port : let c := turning { Chan.idle with st := 4, words := desc0 true, resv := true }
    let e := turning { Chan.idle with st := 4, words := desc0 false, resv := true }
    let x : Chan := { Chan.idle with words := desc0 false }
    let i := turning { Chan.idle with st := 4, words := desc0 false, resv := true, fill := x.pieceOctets }
    (c.chan 0 0 0).moved < (c.chan 0 0 0).total ∧ (c.chan 0 0 0).outbound = true ∧ c.halted 0 = false ∧ (c.chan 0 0 0).code = none ∧
    (e.chan 0 0 0).moved < (e.chan 0 0 0).total ∧ (e.chan 0 0 0).slicesPer * ((e.chan 0 0 0).fill / (e.chan 0 0 0).pieceOctets) ≤ (e.chan 0 0 0).moved ∧
    (i.chan 0 0 0).moved < (i.chan 0 0 0).slicesPer * ((i.chan 0 0 0).fill / (i.chan 0 0 0).pieceOctets) ∧ (stagedSlice (i.chan 0 0 0) 0).2 = 0 ∧
    (i.chan 0 0 0).outbound = false := by decide +kernel
theorem wit_Turn_clear : let c := turning { Chan.idle with st := 4, words := desc0 false, resv := true, moved := 1, fill := 1 }
    (c.chan 0 0 0).resv = true ∧ (c.chan 0 0 0).total ≤ (c.chan 0 0 0).moved := by decide +kernel
theorem wit_Turn_complete : let x := { Chan.idle with st := 5, words := desc0 true, code := some 0 }
    let c := turning x
    let r := chanGather 0 0 0 (opWr, request (.ctu 0) true (entryAddr c 0 0 0 7) 4 (nonetsOf (chanStatus x 0)) [] c) c
    (c.chan 0 0 0).code = some 0 ∧ (c.chan 0 0 0).resv = false ∧ (c.chan 0 0 0).wq = [] ∧ 0 < (c.dieCols 0).length ∧ r.1.isSome = true ∧
    (r.2.chan 0 0 0).chen = false := by decide +kernel
theorem wit_Turn_gone : let c := (turning { Chan.idle with st := 4, words := desc0 false }).setFlag (pgHbmc 0 0) 3 2 true
    (c.chan 0 0 0).st = 4 ∧ hbmUp c 0 = false := by decide +kernel
theorem wit_Slice : let x : Chan := { Chan.idle with words := [0, 64, BitVec.ofNat 36 (2 ^ 33 + 1), BitVec.ofNat 36 (100 * 2 ^ 23 + 2 ^ 10), 0, 0, 0] }
    x.stage = [] ∧ (x.layout = 0 → 0 % x.slicesPer < x.sw) ∧ (x.octetOf (x.streamBit 0 0)).isSome = true ∧ x.octetOf (x.streamBit 0 8) = none := by
  decide +kernel

/-! ### Registers -/

theorem wit_Register_write : ∀ x ∈ [(pgHub, 8, 5), (pgHub, 9, 3), (pgBw 0, 17, 8), (pgBank 0, 18, 0x800000000), (pgBank 1, 17, 3), (pgStop 0 3, 18, 5)],
    up.takes .hub x.1 x.2.1 (BitVec.ofNat 36 x.2.2) = true ∧ (slotSpec x.1 x.2.1).isSome = true ∧
    (x.2.1 = 8 ∨ x.2.1 = 9 ∨ (16 ≤ x.2.1 ∧ (pageBlock x.1).1 ∈ [.bw, .bank, .stop])) := by decide +kernel
theorem wit_Register_evSet : up.takes .hub pgHub 7 2 = true ∧ (∃ e ∈ slotSpec pgHub 7, bitAt e.wo 1 = true) := by decide +kernel
theorem wit_Register_evl : let c := { up with evls := [(pgBw 0, true)] }
    c.flag pgEvh 3 0 = false ∧ c.evls.find? (fun e => evlWay e.1 == evlWay (pgBw 0)) = some (pgBw 0, true) ∧ (pageSource (pgBw 0)).isSome = true := by decide +kernel
theorem wit_Refused : let c := (up.setFlag pgHub 9 2 true)
    slotStatus pgHub 8 c = 0 ∧ (pageBlock pgHub).1 ≠ .unlisted ∧ slotOpen .hub pgHub 8 = true ∧ plainSlot pgHub 8 = false ∧ lockedSlot c pgHub 8 = true ∧
    c.flag pgHub 3 35 = false ∧ (c.setFlag pgHub 3 35 true).flag pgHub 3 35 = true ∧
    lockedSlot (c.setFlag pgHub 3 35 true) pgHub 8 = true := by decide +kernel
theorem wit_Refused_reserved : slotStatus (pgMseq 0) 29 up = 0 ∧ slotOpen .thonos (pgMseq 0) 29 = true ∧ plainSlot (pgMseq 0) 29 = false ∧
    reservedSlot (pgMseq 0) 29 5 up = true ∧ up.flag (pgMseq 0) 3 35 = false := by decide +kernel
theorem wit_Secure : (∀ p ∈ [pgThonos, pgBank 7], pageGone up p = false ∧ up.flag p 3 35 = false) ∧ up.takes .hub pgThonos 2 (BitVec.ofNat 36 (2 ^ 30)) = true := by
  decide +kernel
theorem wit_Nonets : let w := immWord 0o35 4 8 0
    let c := at0 w up
    c.ready 0 (.load 0o35) w = true ∧ (c.w 0 (wRa w) + sextImm w).toNat = 8 ∧ bankBase 0 ≤ 8 ∧ c.badNonets 8 = [] ∧ c.badNonets 12 = [] ∧ wRd w ≠ 0 := by
  decide +kernel
theorem wit_Port : up.port 1 = 0 ∧ (1#36).toNat % 4 = routeNo true ∧ ownsPort (up.setPort 1 1) true = true ∧ ownsPort (up.setPort 1 1) false = false ∧
    (0#36).toNat % 4 = 0 ∧ ¬ ((up.setPort 1 1).port 1 = 0 ∧ (2#36).toNat % 4 = routeNo false) := by decide +kernel

/-! ### Memories -/

/-- Both stacksUp of die 0 are up. -/
def stacksUp : Chip := (up.setReg (pgHbmc 0 0) 3 1).setReg (pgHbmc 0 1) 3 1
theorem wit_Memory_hbm : let c := stacksUp.setChan 0 0 0 { Chan.idle with wq := [(0, [1, 2])] }
    hbmUp stacksUp 0 = true ∧ (c.chan 0 0 0).wq = [(0, [1, 2])] ∧ queuedBlock c 0 0 0 8 = true ∧ queuedBlock c 0 0 64 64 = false ∧
    queuedBlock c 0 1 0 8 = false := by decide +kernel
theorem wit_Memory_space : 64 + 64 ≤ dieSize := by unfold dieSize; split <;> decide
theorem wit_Memory_bank : bankOn up 0 = true ∧ bankClearing up 0 = false ∧ bankWiping up 0 = false ∧ testDue 0 up = true ∧
    (up.setFlag (pgBank 0) 16 35 true).flag (pgBank 0) 16 35 = true ∧ (∀ i < 64, up.badNonets (bankBase 0 + 4 * i) = []) := by decide +kernel
theorem wit_Memory_pdown : let c := (up.setFlag (pgBank 5) 2 0 true).setFld (pgBank 5) 3 3 2 2
    let d := (up.setFlag (pgBank 5) 2 0 true).setFld (pgBank 5) 3 3 2 1
    let e := up.setFlag (pgBank 5) 3 0 true
    let h := { e with mem := { e.mem with held := [(5, some (.read 0), none)] } }
    let w := up.setFlag (pgBank 7) 3 2 true
    up.takes .hub (pgBank 5) 2 1 = true ∧ up.flag (pgBank 5) 2 0 = false ∧ bankOn up 5 = true ∧
    c.takes .hub (pgBank 5) 2 0 = true ∧ c.flag (pgBank 5) 2 0 = true ∧ c.fld (pgBank 5) 3 3 2 = 2 ∧ bankOn c 5 = false ∧
    d.flag (pgBank 5) 2 0 = true ∧ d.fld (pgBank 5) 3 3 2 = 1 ∧ d.mem.held = [] ∧ e.flag (pgBank 5) 2 0 = false ∧ bankClearing e 5 = true ∧ e.calm = true ∧
    bankClearing h 5 = true ∧ h.calm = true ∧ h.mem.held = [(5, some (.read 0), none)] ∧
    bankWiping w 7 = true ∧ w.mem.held = [] ∧ w.sec.afterWipe = none ∧
    ({ w with sec := { w.sec with afterWipe := some true } } : Chip).sec.afterWipe = some true := by decide +kernel
theorem wit_Collide : 1048575 < bankWords 3 ∧ up.badNonets (bankBase 3 + 4 * 1048575) = [] ∧
    (let c := up.setCore 1 { Core.init with resv := some 8 }; (c.core 1).resv = some 8 ∧ (c.core 1).failStc = false) := by decide +kernel
theorem wit_Hbm : hbmUp up 0 = false ∧ (5 : BitVec 38).toNat + (4 : BitVec 9).toNat ≤ dieSize ∧ (5 : BitVec 38).toNat / dieSize = 0 ∧ 5 % dieSize = 5 := by
  refine ⟨by decide +kernel, ?_⟩
  unfold dieSize
  split <;> decide

/-! ### Rings -/

/-- A packet of the host link to the bank of core 0. -/
def packet (n a : Nat) (data : List (BitVec 9)) : Pkt := request (.host 0) true a n data [] up
/-- A packet on its way. -/
def flying (opc : Nat) (q : Pkt) : Fly := ⟨opc, q, false, none⟩
theorem wit_Ring_serve : ∀ x ∈ [(opRd, 4, []), (opWr, 4, [1, 2, 3, 4]), (opWrp, 4, [1, 2, 3, 4]), (opAadd, 4, [1, 2, 3, 4]), (opAswap, 4, [1, 2, 3, 4]), (opLdr, 4, []),
      (opStc, 4, [1, 2, 3, 4]), (opRd, 0, [])], let q := packet x.2.1 64 x.2.2
    let held := up.setFld (pgStop q.src.1 q.src.2) 3 0 3 1
    q.hdr = 0 ∧ granted up q = false ∧ stopHolds x.1 q up = false ∧ stopHolds x.1 q held = true ∧ circulates up q.dst = false ∧ up.ring.flight = [] ∧
    (serve x.1 q [] up).1.isSome = true := by decide +kernel
theorem wit_Ring_waits : let c := up.setFlag (pgBank 0) 3 0 true
    stopHolds opRd (packet 4 64 []) c = false ∧ circulates c (packet 4 64 []).dst = false ∧ (serve opRd (packet 4 64 []) [] c).1 = none ∧
    (serve opWr (packet 4 64 [1, 2, 3, 4]) [] c).1 = none := by decide +kernel
/-- A grant from the stop of host half 0 to that of bank 0. -/
def grantedUp : Chip := { up with ring := { up.ring with grants := [(16, withField (withField 0 31 4 (packet 4 64 []).src.2) 27 4 (packet 4 64 []).dst.2)] } }
theorem wit_Ring_strm : let q := packet 4 64 [1, 2, 3, 4]
    granted grantedUp q = true ∧ q.mask = [] ∧ q.len ≠ 0 ∧ q.data.length ≤ 56 ∧ stopHolds opStrm q grantedUp = false ∧ stopHolds opWrp q grantedUp = false ∧
    circulates grantedUp q.dst = false ∧ (serve opStrm q [] grantedUp).1.isSome = true := by decide +kernel
theorem wit_Ring_bank : let q := packet 4 64 []
    let off := up.setFld (pgBank 0) 3 3 2 2
    let clr := up.setFlag (pgBank 0) 3 0 true
    q.nonet = true ∧ bankAt q.addr.toNat = some 0 ∧ inBank 0 (q.addr.toNat - q.addr.toNat % 4) ((q.addr.toNat % 4 + q.len.toNat + 3) / 4) = true ∧
    bankOn up 0 = true ∧ bankClearing up 0 = false ∧ bankOn off 0 = false ∧ bankOn clr 0 = true ∧ bankClearing clr 0 = true ∧
    (∀ i < 4, nonetBad (up.cell (64 + i)) = false) := by decide +kernel
/-- A response of kind `opc` on its way to the stop of core 0, from that of bank 0; `block` tells who waits for it, if anyone does. -/
def answer0 (opc : Nat) : Fly := flying opc { packet 4 64 [1, 2, 3, 4] with init := 0, src := (0, 3), dst := initStop 0, tag := 1 }
def answered (opc : Nat) (block : Option Bool) (c : Chip) : Chip := { c with ring := { c.ring with
  flight := [answer0 opc], owed := match block with | some b => [⟨initStop 0, 1, opRd, 0, b⟩] | none => [] } }
theorem wit_Ring_receive : ∀ opc ∈ [opData, opAck], ∀ b ∈ [some true, some false, none], let c := answered opc b up
    c.calm = true ∧ c.ring.flight.find? (fun y => y.opc == opc && y.k.dst == (0, 2) && firstOfWay c y) = some (answer0 opc) ∧
    (owedAs (0, 2) 1 c).map Owed.block = b ∧ circulates c (0, 2) = false := by decide +kernel
theorem wit_Ring_cop : let c := (bound up).setCore 0 { Core.init with cop := some request0 }
    let x := copPacket 0 request0 0 c
    (c.core 0).cop = some request0 ∧ request0.taken = false ∧ tileOff c 2 = false ∧ c.tileState 2 = 3 ∧ (c.tile 2).cur = none ∧ (c.tile 2).waiting = [] ∧
    freeTag x c = some 0 ∧ stopHolds opCop { x with tag := 0 } c = false ∧ circulates c x.dst = false ∧ c.ring.flight = [] := by decide +kernel
theorem wit_Ring_copr : let q := { request0 with taken := true }
    let c := answered opCopr (some true) (up.setCore 0 { Core.init with cop := some q })
    c.dbg.cmd = none ∧ c.halted 0 = false ∧ (c.core 0).cop = some q ∧ q.tag = (answer0 opCopr).k.tag ∧ (answer0 opCopr).k.status = 0 ∧
    c.ring.flight.find? (fun y => y.opc == opCopr && y.k.dst == initStop 0 && firstOfWay c y) = some (answer0 opCopr) ∧
    (owedAs (initStop 0) 1 c).isSome = true := by decide +kernel
theorem wit_Ring_flits : (packet 224 64 (List.replicate 224 5)).data.length ≤ packetMax true false ∧ (0 : Nat) < 224 := by decide +kernel
theorem wit_Stops_reconf : let c := (up.setFlag (pgStop 0 2) 2 0 true).setFld (pgStop 0 2) 3 0 3 1
    let d := (up.setFlag (pgStop 0 2) 2 0 true).setFld (pgStop 0 2) 3 0 3 2
    up.takes .hub (pgStop 0 2) 2 1 = true ∧ stopMode up (0, 2) = 0 ∧ c.takes .hub (pgStop 0 2) 2 0 = true ∧ stopMode c (0, 2) = 1 ∧
    d.takes .hub (pgStop 0 2) 2 0 = true ∧ stopMode d (0, 2) = 2 ∧ c.ring.owed = [] ∧ c.ring.flight = [] := by decide +kernel
theorem wit_Stops_xr : let q := { packet 4 64 [] with dst := (1, 3) }
    q.hdr = 0 ∧ opRd ≠ 0o14 ∧ opRd ≠ 0o07 ∧ q.src.1 ≠ q.dst.1 ∧ stopHolds opRd q up = false := by decide +kernel
theorem wit_Stops_pass : ∀ lap ∈ [0, 3, 4], let f := flying opRd { packet 4 64 [] with dst := (0, 3), lap := BitVec.ofNat 3 lap }
    let c := up.setFld (pgStop 0 3) 3 0 3 1
    let d := { c with ring := { c.ring with flight := [f] } }
    d.calm = true ∧ nextPass (0, 3) d = some f ∧ circulates d (0, 3) = true ∧ isPosted opRd = false ∧ f.opc < opData := by decide +kernel
theorem wit_Stops_timeout : let c := up.setReg (pgDrove 0) 144 5
    let d := { c with ring := { c.ring with owed := [⟨(0, 2), 3, opRd, 0, false⟩] } }
    d.calm = true ∧ d.fld (pgDrove 0) 144 0 24 ≠ 0 ∧
    d.ring.owed.find? (fun x => x.stop == (0, 2) && x.tag == 3 && x.init == 0) = some ⟨(0, 2), 3, opRd, 0, false⟩ := by decide +kernel

/-! ### Rim fabric -/

/-- Tile 0 runs with a TCK divided by 1 for tree 0 and the cell `y` at 0. -/
def running0 (w : Word) : Chip := (up.setFld (pgTile 0) 3 0 2 3).setTile 0
  { Tile.unconf with clk := 4, cells := [(0, { Cell.idle with ir := [w, 0, 0, 0, 0, 0, 0, 0], len := 1 })] }


theorem wit_Cells : ∀ op < 26, let w : Word := BitVec.ofNat 36 (op * 2 ^ 30)
    let c := running0 w
    c.tileState 0 = 3 ∧ treeClock (c.tile 0).clk 0 = some (false, 1) ∧ ((c.tile 0).due false).contains 0 = true ∧
    cellTag ((c.tile 0).cell 0).ins = (op, 0) ∧ tileReady c 0 = true ∧ tileFrozen c 0 false = false ∧ c.flag (pgTile 0) 3 10 = false := by decide +kernel
theorem wit_Cells_put : ∀ port < 5, let c := running0 (BitVec.ofNat 36 (0o31 * 2 ^ 30 + port))
    cellTag ((c.tile 0).cell 0).ins = (0o31, port) ∧ ((c.tile 0).due false).contains 0 = true ∧ settle 16 c = c := by decide +kernel
/-- The same tile with tree 0 on REF25. -/
theorem wit_Cells_ref : let c := (running0 0).setTile 0 { (running0 0).tile 0 with clk := 5 }
    treeClock (c.tile 0).clk 0 = some (true, 1) ∧ ((c.tile 0).due true).contains 0 = true ∧ settle 16 c = c ∧ settleRef 0 16 c = c ∧
    tileReady c 0 = true ∧ tileFrozen c 0 true = false := by decide +kernel
theorem wit_Cells_settled : settle 16 (running0 0) = running0 0 ∧ SMap.wf (fun _ => Cell.idle) ((running0 0).tile 0).cells = true := by decide +kernel
theorem wit_CellTable : (64 : Nat) < 2 ^ 18 ∧ 64 / 64 ≤ 36 := by decide
theorem wit_Tiles_load : up.takes .hub (pgTile 0) 2 1 = true ∧ (up.setFld (pgTile 0) 3 0 2 2).takes .hub (pgTile 0) 2 2 = true ∧
    (up.setFld (pgTile 0) 3 0 2 2).takes .hub (pgTile 0) 17 1 = true ∧ (up.setFld (pgTile 0) 3 0 2 1).takes .hub (pgTile 0) 2 2 = true := by decide +kernel
theorem wit_Tiles_done : let c := (up.setFld (pgTile 0) 3 0 2 1).setTile 0 { Tile.unconf with base := bankBase 5 }
    c.tileState 0 = 1 ∧ bankOn c 5 = true ∧ bankClearing c 5 = false ∧ (c.tile 0).base % 4 = 0 ∧ inBank 5 (c.tile 0).base 2368 = true := by decide +kernel
theorem wit_Tiles_run : let c := (running0 0).setTile 0 { Tile.unconf with waiting := [(0, request0)] }
    (c.tile 0).cur = none ∧ (c.tile 0).waiting = [(0, request0)] ∧ soutReady c 0 = none ∧ (c.tile 0).sout.length < 256 ∧ c.tileState 0 = 3 ∧
    treeStarts (c.tile 0).clk (c.tile 0).pos 0 = true ∧ (∀ e ∈ (c.tile 0).cells, e.1 / 36 = 0 → e.2.pend = none) ∧
    treeClock (c.tile 0).clk 1 = none := by decide +kernel
theorem wit_Tiles_domain : up.takes .hub pgHub 24 (withField (up.reg pgHub 24) 8 1 1) = true ∧ tileOff up 0 = false ∧
    (let c := up.setFlag pgHub 24 8 true
     c.takes .hub pgHub 24 (withField (c.reg pgHub 24) 8 1 0) = true ∧ tileOff c 0 = true) := by decide +kernel

/-! ### Collies -/

/-- A running channel: 16 instructions from 0, divisor 4, words of 8 bits one bit a step on pin 0. -/
def chan0 : CChan := { CChan.init with st := 2, entry := [BitVec.ofNat 36 (16 * 2 ^ 12 + 4), BitVec.ofNat 36 (8 * 2 ^ 30 + 2 ^ 26), 0, 0, 0, 0, 0] }
/-- Channel 0 of engine 0 is `x`, and its program store holds `v` at 0. -/
def collie0 (v : Nat) (x : CChan) : Chip := (up.setPs 0 0 v).setCch 0 0 x
/-- A legal instruction of each operation. -/
def collieCode : CTag → Nat
  | .sho => 0x4001 | .shi => 0x8001 | .shb => 0xC001 | .pin => 0x101FF | .waitp => 0x14000 | .waitf => 0x18000 | .waite => 0x1C00C | .setf => 0x2000F
  | .at => 0x24000 | .ldi => 0x28FFF | .addi => 0x2CFFF | .jmp => 0x34001 | .loop => 0x38101 | .loopg => 0x3C100
  | .pull => 0x30000 | .push => 0x30200 | .mov => 0x30400 | .add => 0x30600 | .sub => 0x30800 | .and => 0x30A00 | .or => 0x30C00 | .xor => 0x30E00
  | .not => 0x31000 | .stampw => 0x31200 | .stampa => 0x31400 | .take => 0x31600 | .sig => 0x31800 | .finish => 0x31A00 | .time => 0x31C00 | .flusho => 0x31E00
  | .cmpu => 0x32000 | .reserved => 0
theorem wit_Collie_ready : ∀ t ∈ [CTag.sho, .shi, .shb, .pin, .waitp, .waitf, .waite, .setf, .at, .ldi, .addi, .jmp, .loop, .loopg, .pull, .push, .mov, .add, .sub, .and,
      .or, .xor, .not, .stampw, .stampa, .take, .sig, .finish, .time, .flusho, .cmpu],
    (collie0 (collieCode t) chan0).collieReady 0 0 t (collieCode t) = true ∧ chanTurn (collie0 (collieCode t) chan0) 0 0 = true := by decide +kernel
theorem wit_Collie_cases : let f := collie0 0x1A000 chan0
    let e := collie0 0x1C00C { chan0 with events := 0x1000 }
    f.collieReady 0 0 .waitf 0x1A000 = true ∧ f.flag (pgCollie 0) 22 0 ≠ true ∧ e.collieReady 0 0 .waite 0x1C00C = true ∧
    (e.cch 0 0).events.getLsbD 12 = true ∧ (f.cch 0 0).events.getLsbD 12 = false ∧ tallyReached f 1 = false ∧
    cf 0x4001 0 14 ≠ 0 ∧ chan0.cdiv ≠ 0 ∧ (collie0 0x4001 { chan0 with run := some ⟨true, false, 3, none⟩ }).collieReady 0 0 .sho 0x4001 = true := by decide +kernel
theorem wit_Collie_pin : let c := (List.range 9).foldl (fun c p => c.setReg (pgCollie 0) (32 + p) 0) (collie0 0x101FF chan0)
    c.collieReady 0 0 .pin 0x101FF = true ∧ (∀ i < 9, pinOwner c 0 i = 0) ∧ (c.cch 0 0).timed = none := by decide +kernel
theorem wit_Collie_jumps : cCond chan0 2 = false ∧ (collie0 0x35001 chan0).collieReady 0 0 .jmp 0x35001 = true ∧ cf 0x35001 11 3 = 2 ∧ cCond chan0 0 = true ∧
    chan0.inWindow 1 = true ∧ chan0.inWindow 0x7FF = false ∧ (collie0 0x347FF chan0).collieReady 0 0 .jmp 0x347FF = true ∧ cf 0x347FF 0 11 = 0x7FF ∧
    (let c := collie0 0x38101 { chan0 with loop := some (5, 6, 1) }; c.collieReady 0 0 .loop 0x38101 = true ∧ (c.cch 0 0).loop ≠ none) ∧
    (collie0 0x3BF01 chan0).collieReady 0 0 .loop 0x3BF01 = true ∧ chan0.inWindow (0 + cf 0x3BF01 8 6) = false ∧ chan0.loop = none ∧ cf 0x38101 8 6 = 1 ∧ cf 0x38101 0 8 = 1 ∧
    (collie0 0x38001 chan0).collieReady 0 0 .loop 0x38001 = true ∧ cf 0x38001 8 6 = 0 := by decide +kernel
theorem wit_Collie_queues : let c := collie0 0x30000 { chan0 with outq := [5] }
    c.collieReady 0 0 .pull 0x30000 = true ∧ (c.cch 0 0).outq = [5] ∧ chan0.inq.length < chan0.depth := by decide +kernel
theorem wit_Collie_reserved : let c := collie0 0 chan0
    (c.cch 0 0).inWindow 0 = true ∧ psBad (c.psWord 0 0) = false ∧ cTag ((c.psWord 0 0).setWidth 18).toNat = .reserved ∧ colOff c 0 = false ∧
    chanTurn c 0 0 = true := by decide +kernel
/-- A channel whose divisor is 0, a PIN of a pin that another channel owns, and a shift that waits for TALLY. -/
theorem wit_Collie_errors : let z := collie0 0x4001 { chan0 with entry := [BitVec.ofNat 36 (16 * 2 ^ 12), 0, 0, 0, 0, 0, 0] }
    let p := (collie0 0x101FF chan0).setReg (pgCollie 0) 32 0x10
    z.collieReady 0 0 .sho 0x4001 = true ∧ (z.cch 0 0).cdiv = 0 ∧ p.collieReady 0 0 .pin 0x101FF = true ∧ pinOwner p 0 0 ≠ 0 ∧
    (collie0 0x101FF { chan0 with timed := some 9 }).collieReady 0 0 .pin 0x101FF = true := by decide +kernel
theorem wit_Engine_writes : let c := collie0 0 chan0
    up.takes .hub (pgCollie 0) 17 1 = true ∧ c.takes .hub (pgCollie 0) 24 (BitVec.ofNat 36 (16 * 255)) = true ∧ c.takes .hub (pgCollie 0) 27 1 = true ∧
    c.takes .hub (pgCollie 0) 19 (BitVec.ofNat 36 (16 * 3)) = true ∧ c.takes .hub (pgCollie 0) 19 (BitVec.ofNat 36 (2 ^ 15 + 16 * 3)) = true ∧
    (c.cch 0 0).st ≠ 0 ∧ (c.cch 0 0).swap = none ∧ c.takes .hub (pgCollie 0) 18 1 = true ∧ up.takes .hub (pgCollie 0) 21 5 = true ∧
    up.fld (pgCollie 0) 20 0 12 % 2 = 0 ∧ up.takes .hub (pgCollie 0) 43 (BitVec.ofNat 36 (2 ^ 16)) = true := by decide +kernel
theorem wit_Engine_arm : let c := up.setReg (pgCollie 0) 25 1
    c.takes .hub (pgCollie 0) 26 3 = true ∧ mayStartChans c 0 3 = true ∧ tallyReached c (c.reg (pgCollie 0) 25) = false := by decide +kernel
theorem wit_Engine_sync : let c := (up.setReg (pgCollie 0) 26 1).setCch 0 0 { chan0 with st := 5 }
    c.reg (pgCollie 0) 26 ≠ 0 ∧ tallyReached c (c.reg (pgCollie 0) 25) = true ∧ (∀ i < 16, bitAt (c.reg (pgCollie 0) 26) i = true → (c.cch 0 i).st ≠ 1) := by decide +kernel
theorem wit_Engine_entry : let c := ((up.bankWrite (bankBase 6) (BitVec.ofNat 36 (16 * 2 ^ 12 + 4)) allNonets false)).setCch 0 0 { CChan.init with st := 1, base := bankBase 6 }
    (c.cch 0 0).st = 1 ∧ (c.cch 0 0).sync = false ∧ (∃ ws ∈ (ownWords 6 7 ((c.cch 0 0).base + 32 * 0) c).1,
      entryCheck c 0 0 { c.cch 0 0 with entry := ws } = none ∧ ({ c.cch 0 0 with entry := ws } : CChan).plen ≠ 0) := by decide +kernel
theorem wit_Engine_step : let x := { chan0 with run := some ⟨true, false, 8, none⟩, outq := [0xA5] }
    x.run = some ⟨true, false, 8, none⟩ ∧ x.held = none ∧ x.cken = false ∧ x.dwidth ≠ 0 ∧ x.sern = 0 ∧ x.outq = [0xA5] ∧ x.dwidth ≤ x.wlen ∧ x.obase + x.dwidth ≤ 9 ∧
    x.desn + x.dwidth < x.wlen ∧ x.wlen ≤ 36 := by decide +kernel
theorem wit_Engine_waits : let x := { chan0 with events := 1 }
    x.events.getLsbD 0 = true ∧ up.flag (pgCollie 0) 22 0 = false ∧ sampleOf up 0 1 0 = true ∧ tallyReached up 0 = true := by decide +kernel
theorem wit_Engine_at : let x := { chan0 with wait := some (.atPin 0 1 1) }
    let y := { chan0 with run := some ⟨true, false, 3, some 0⟩ }
    x.wait = some (.atPin 0 1 1) ∧ y.wait = none ∧ y.run = some ⟨true, false, 3, some 0⟩ ∧ tallyReached (collie0 0 y) 0 = true := by decide +kernel
theorem wit_Engine_tcmp : let c := { up with col := { up.col with tcmp := [(0, true)] } }
    SMap.get (fun _ => false) c.col.tcmp 0 = true ∧ tallyReached c (c.reg (pgCollie 0) 28) = true := by decide +kernel
theorem wit_Engine_swap : let x := { chan0 with swap := some 3 }
    x.swap = some 3 ∧ x.wait = none ∧ x.shiftIdle = true := by decide +kernel
theorem wit_Engine_window : let c := collie0 0 { chan0 with inq := [7] }
    let k (n : Nat) (data : List (BitVec 9)) : Pkt := { request (.host 0) true (windowNonet 0 0) n data [] c with tag := 0 }
    initOf (.host 0) < 29 ∧ initOf (.host 0) ≠ 22 ∧ freeTag (k 4 []) c = some 0 ∧ freeTag (k 4 (nonetsOf 5)) c = some 0 ∧
    stopHolds opRd (k 4 []) c = false ∧ stopHolds opWr (k 4 (nonetsOf 5)) c = false ∧ c.ring.flight = [] ∧ circulates c (k 4 []).dst = false ∧
    pageOff c (pgCollie 0) = false ∧ windowOpen c 0 0 = true ∧ 1 ≤ windowRoom c 0 0 ∧ (c.cch 0 0).inq ≠ [] ∧ (c.cch 0 0).wait = none ∧
    (c.cch 0 0).held = none ∧ chan0.inq = [] := by decide +kernel
theorem wit_Engine_domain : let c := up.setFlag pgHub 24 0 true
    up.takes .hub pgHub 24 (withField (up.reg pgHub 24) 0 1 1) = true ∧ colOff up 0 = false ∧ c.takes .hub pgHub 24 (withField (c.reg pgHub 24) 0 1 0) = true ∧
    colOff c 0 = true := by decide +kernel

/-! ### Host link, DMA and events -/

/-- Half 0 is in L0, and its functions 0 and 1 have memory space and bus mastering enabled. -/
def linked0 : Chip := ((((up.setFld (pgPcie 0) 3 0 3 2).setFld (pgPcie 0) 2 0 3 5)).setReg (pgPf 0) 17 0x700).setReg (pgPf 1) 17 0x700
theorem wit_Link_train : let c := up.setFld (pgPcie 0) 2 0 3 5
    halfOn c 0 = true ∧ linkUp c 0 = false ∧ 3 ≤ (5 : BitVec 3).toNat ∧ (5 : BitVec 3).toNat ≤ c.fld (pgPcie 0) 2 0 3 ∧
    (16 ≤ if bifurcated c then 8 else 16) ∧ c.fld (pgPcie 0) 2 0 3 ≠ 0 ∧ c.fld (pgPcie 0) 3 0 3 ≠ 3 ∧ (2 : BitVec 3).toNat < 3 := by decide +kernel
theorem wit_Link_up : halfOn linked0 0 = true ∧ linkUp linked0 0 = true ∧ linkLive linked0 0 = true ∧ (∀ n < 2, ∀ e < 4, (linked0.dma n e).words = []) ∧
    cfgReach linked0 0 = true ∧ cfgReach linked0 3 = true ∧ pfD3 linked0 0 = false ∧ memOn linked0 0 = true ∧ pfBme linked0 3 = false ∧
    msixAt 0 0x3C00C = some (true, 12) ∧ 12 / 16 < vectorCount 0 := by decide +kernel
theorem wit_Link_retrain : linked0.takes .hub (pgPcie 0) 2 (withField (linked0.reg (pgPcie 0) 2) 3 1 1) = true ∧ linked0.fld (pgPcie 0) 2 0 3 ≠ 0 := by
  decide +kernel
theorem wit_Link_bank : bankOn linked0 4 = true ∧ bankClearing linked0 4 = false ∧ (bankBase 4 + 4) % 4 = 0 ∧ linked0.badNonets (bankBase 4 + 4) = [] ∧
    SMap.get (fun _ => []) linked0.hst.reqs (pfHalf linked0 0) = [] ∧ linked0.hst.posted = [] := by decide +kernel
/-- Engine 0 of half 0 with the enable bit, four entries in the host bank, and one entry placed. -/
def engine0 : Chip := ((up.setReg (pgPcie 0) 16 (BitVec.ofNat 36 (bankBase 4))).setReg (pgPcie 0) 17 0x800000004).setReg (pgPcie 0) 18 1
theorem wit_Dma_writes : let c := engine0.setReg (pgPcie 0) 17 4
    c.takes .hub (pgPcie 0) 17 (withField (c.reg (pgPcie 0) 17) 35 1 1) = true ∧ c.flag (pgPcie 0) 17 35 = false ∧ (c.dma 0 0).words = [] ∧
    engine0.takes .hub (pgPcie 0) 17 (withField (engine0.reg (pgPcie 0) 17) 35 1 0) = true ∧ engine0.flag (pgPcie 0) 17 35 = true ∧
    c.takes .hub (pgPcie 0) 16 (BitVec.ofNat 36 (bankBase 4)) = true ∧ c.takes .hub (pgPcie 0) 17 (withField (c.reg (pgPcie 0) 17) 0 12 8) = true ∧
    engine0.takes .hub (pgPcie 0) 18 2 = true := by decide +kernel
/-- A descriptor that brings four octets of the host to word 0 of the bank of core 0. -/
def entry0 : List Word := [0, 0, 0, 0, 0x80000000, 4, 0]
def engine1 : Chip := (((engine0.setReg (pgPf 0) 17 0x700).bankWrite (bankBase 4 + 16) 0x80000000 allNonets false)).bankWrite (bankBase 4 + 20) 4 allNonets false
theorem wit_Dma_start : dmaReady engine1 0 0 = true ∧ bankOn engine1 4 = true ∧ dmaEntry ((engine1.reg (pgPcie 0) 16).toNat + 32 * engine1.fld (pgPcie 0) 19 0 12) engine1 = (some entry0, engine1) ∧
    dmaCheck engine1 0 0 { Dma.idle with words := entry0 } = none ∧ ({ Dma.idle with words := entry0 } : Dma).mark = false := by decide +kernel
theorem wit_Dma_run : let x := { Dma.idle with words := [0, 0, 0, 0, 0, 0, 0] }
    let c := (engine0.setFld (pgPcie 0) 20 33 3 1).setDma 0 0 x
    let d := (engine0.setFld (pgPcie 0) 20 33 3 1).setDma 0 0 { x with code := some 0 }
    (c.dma 0 0).words ≠ [] ∧ c.fld (pgPcie 0) 20 33 3 = 1 ∧ bankClearing c 4 = false ∧ (c.dma 0 0).code = none ∧
    (c.dma 0 0).skind = 0 ∧ (d.dma 0 0).code = some 0 ∧ (d.dma 0 0).words ≠ [] ∧ (dmaMove 0 0 [] none [] c).1.isSome = true := by decide +kernel
/-- Engine 0 waits for the marker `v` at 64. -/
def marked (v : Word) : Chip :=
  ((engine0.bankWrite 64 v allNonets false).setFld (pgPcie 0) 20 33 3 2).setDma 0 0 { Dma.idle with words := [64, 0, 0, 0, 0, 0, 0] }
theorem wit_Dma_marker : let c := marked 0
    let r := dmaGather 0 0 (fun st => st == 0) [(opRd, request (.dma 0) true 64 4 [] [] c)] c
    c.fld (pgPcie 0) 20 33 3 = 2 ∧ (c.dma 0 0).words ≠ [] ∧ (c.dma 0 0).srca + 4 * (c.dma 0 0).count = 64 ∧
    r.1.map (fun l => l.map (fun x => (x.status, (wordOf x.data).toNat))) = some [(0, 0)] := by decide +kernel
/-- The answer to its read, 5, has come. -/
theorem wit_Dma_marker_set : let k := request (.dma 0) true 64 4 [] [] (marked 5)
    let c := (marked 5).setDma 0 0 { (marked 5).dma 0 0 with xact := ⟨[], some (k.src, 3)⟩ }
    let c := { c with ring := { c.ring with answers := [(opData, { k with dst := k.src, src := k.dst, tag := 3, data := nonetsOf 5 })] } }
    let rd := (opRd, request (.dma 0) true 64 4 [] [] c)
    let r := dmaGather 0 0 (fun st => st == 0) [rd] c
    r.1.map (fun l => l.map (fun x => (x.status, (wordOf x.data).toNat))) = some [(0, 5)] ∧
    (dmaGather 0 0 (fun st => st == 0) [rd, (opWr, request (.dma 0) true 64 4 (nonetsOf 0) [] r.2)] r.2).1.map allOk = some true := by decide +kernel
/-- Source 1,146 is high and its route sends vector 0. -/
def signalled (c : Chip) : Chip := { c with evh := { c.evh with levels := [(1146, true)], routes := [(1146, 0x800000000)] } }
theorem wit_Events_vector : let c := signalled linked0
    let m := { c with hst := { c.hst with msix := [(3, 0)] } }
    c.takes .hub pgEvh 70 0 = true ∧ vectorOr c 0 = true ∧ vectorOr linked0 0 = false ∧ pfMsixEn c 0 = true ∧ pfMask c 0 = false ∧ pfBme c 0 = true ∧
    linkUp c (pfHalf c 0) = true ∧ (c.msix 3).getLsbD 0 = true ∧ (m.msix 3).getLsbD 0 = false ∧ (m.setPba 0 true).pbaOf 0 = true := by decide +kernel
theorem wit_Events_hub : let c := { up with evh := { up.evh with armed := [(2, true)] } }
    up.takes .hub pgEvh 2 1 = true ∧ (up.setFlag pgEvh 3 0 true).flag pgEvh 3 0 = true ∧ up.takes .hub pgEvh 68 100 = true ∧
    SMap.get (fun _ => false) c.evh.armed 2 = true ∧ tallyReached c (c.reg pgEvh 68) = true ∧ up.takes .hub pgEvh 17 5 = true ∧ pageSource (pgBw 0) = some 1065 := by
  decide +kernel

/-! ### Modes, power, Thonos, Gander -/

theorem wit_Modes_request : (∀ t ∈ [2, 3, 4, 5, 7], up.takes (.host 0) pgHub 18 (BitVec.ofNat 36 t) = true) ∧
    modeCheck up 3 ≠ 0 := by decide +kernel
theorem wit_Modes_check : modeCheck up 4 = 0 ∧ modeCheck up 5 = 0 := by decide +kernel
theorem wit_Modes_complete : ∀ m ∈ [modeMaint, modeQuiescent], ∀ t ∈ [2, 3, 4, 5, 7],
    let c := { up.setMode m with pwr := { up.pwr with target := some t, retain := decide (t = 2) } }
    c.pwr.off = false ∧ c.pwr.clearing = false ∧ ¬ (c.mode = modeLinked ∨ c.mode = modeSplit) ∧ c.pwr.target = some t := by decide +kernel
theorem wit_Modes_held : let c := cores4.foldl (fun c k => c.setFlag (pgMseq k) 3 2 true) up
    (∀ k < 4, c.mHeld k = true) ∧ (∀ x ∈ allChannels, (c.chan x.1 x.2.1 x.2.2).st = 0) ∧ c.mode = modeSplit := by decide +kernel
theorem wit_Modes_reset : up.pwr.aonLost = false ∧ Chip.reset.pwr.off = true ∧ up.takes (.host 0) pgHub 23 1 = true := by decide +kernel
/-- A board that lets the device leave OFF. -/
def board0 : BootFacts := { railsOk := true, rstHigh := true, refOk := true, testEn := true, wakeLow := true, rstPulsed := true, peBif := false, peSris0 := false,
                            peSris1 := false, mgmt := 0, vcp := 0, flashA := true, flashB := true, mapOk := true, tested := 0, trainFail := 0 }
theorem wit_Modes_boot : mayLeaveOff Chip.reset { board0 with testEn := false } = true ∧ mayLeaveOff Chip.reset board0 = false := by decide +kernel
theorem wit_Modes_map : up.takes (.host 0) pgHub 21 (BitVec.ofNat 36 (2 ^ 35)) = true ∧ (up.setFlag pgHub 21 34 true).flag pgHub 21 34 = true ∧
    (up.setMode modeMaint).takes .hub pgFlock 25 1 = true ∧ (up.setFlag pgFlock 3 0 true).flag pgFlock 3 0 = true := by decide +kernel
theorem wit_Modes_stopped : let c := up.setFlag (pgBw 0) 3 4 true
    let d := cores4.foldl (fun c k => c.setFlag (pgBw k) 3 4 true) (voting 5 up)
    let e := d.setCore 1 { Core.init with retired := 3 }
    c.takes .hub pgFlock 21 1 = true ∧ c.takes .hub pgFlock 21 2 = true ∧ d.takes .hub pgFlock 21 2 = true ∧
    (∀ j ∈ d.flockCores 0, (d.core j).retired = (d.core 0).retired) ∧ e.takes .hub pgFlock 21 2 = true ∧
    (∃ j ∈ e.flockCores 0, e.linked = true ∧ e.running j = true ∧ e.dfault j = false ∧ e.halted j = false ∧ (e.core j).retired < e.farthest 0) := by
  decide +kernel
theorem wit_Power_rail : let c := { up with pwr := { up.pwr with rails := [(0, ⟨true, false, 0⟩), (1, ⟨true, true, 7⟩), (2, ⟨true, true, 3⟩)] } }
    (c.rail 0).dip = true ∧ (c.rail 0).ended = false ∧ (c.rail 1).ended = true ∧ (c.rail 1).group = 7 ∧ (c.rail 2).ended = true ∧ (c.rail 2).group = 3 := by decide +kernel
theorem wit_Power_island : islandClass 0 ≠ 0 ∧ (∃ i ∈ List.range 1040, islandClass i = 0) ∧ degrees 100 = 100 ∧ degrees 103 = 103 ∧ degrees 97 = 97 ∧ degrees 99 = 99 := by
  decide +kernel
theorem wit_Power_clocks : let c := up.setFlag (islandPage 0) 16 18 true
    clocked c 0 = true ∧ clocked up 0 = false ∧ clocked up 1024 = true ∧ islandClass 1024 = 0 ∧ islandClass 0 ≠ 0 := by decide +kernel
theorem wit_Power_sample : ∀ x ∈ [(0, (105 : BitVec 8)), (1039, 20)], x.1 < 1040 := by decide
/-- A command of number `n` from the host is under way. -/
def commanded (n : Nat) : Chip := { (up.setReg pgThonos 2 (BitVec.ofNat 36 (n * 2 ^ 30))).setFlag pgThonos 3 23 true with sec := { Sec.init with sender := some 0, lcs := some 3 } }
theorem wit_Thonos_command : (∀ n ∈ [1, 2, 3, 4, 5, 6, 7, 8, 9, 10], (commanded n).flag pgThonos 3 23 = true ∧ cmdOf (commanded n) = n) ∧ mboxOk (commanded 1) = true ∧
    senderOk 1 0 = true ∧ senderOk 1 3 = false ∧ stateOk (commanded 1) 1 0 = true ∧ (commanded 1).sec.afterWipe = none ∧ bankClearing (commanded 1) 4 = false ∧ (commanded 1).dbg.cmd = none := by decide +kernel
theorem wit_Thonos_states : let c := { commanded 2 with sec := { Sec.init with sender := some 0, lcs := some 5 } }
    senderOk 2 0 = true ∧ stateOk c 2 0 = false := by decide +kernel
theorem wit_Thonos_gate : let c := { commanded 8 with sec := { (commanded 8).sec with sender := some 2 } }
    let t := { c with sec := { c.sec with active := [1] } }
    let l := { c with sec := { c.sec with fails := 8 } }
    gateCode c 8 2 = 0 ∧ senderOk 8 2 = true ∧ stateOk t 8 2 = true ∧ tamperActive t = true ∧ gateCode t 8 2 = 0o13 ∧ stateOk l 8 2 = true ∧
    tamperActive l = false ∧ 8 ≤ l.sec.fails ∧ gateCode l 8 2 = 0o11 ∧ gateCode c 9 2 = 2 ∧
    ({ c with sec := { c.sec with fails := 7 } } : Chip).sec.fails = 7 := by decide +kernel
theorem wit_Thonos_args : let c := (commanded 1).bankWrite (mboxAt (commanded 1)) 0x40000000 allNonets false
    readArgs 1 c = (.inr [], c) ∧ readArgs 1 (commanded 1) = (.inl 3, commanded 1) := by decide +kernel
theorem wit_Thonos_nonce : let c := { up with tally := 2 ^ 35 }
    nonceOld c = true ∧ nonceOld up = false ∧ tamperActive up = false ∧ tamperActive { up with sec := { up.sec with active := [1] } } = true := by decide +kernel
theorem wit_Thonos_tamper : (let w := up.setFlag (pgBank 7) 3 2 true; bankWiping w 7 = true ∧ w.sec.afterWipe = none ∧
      ({ w with sec := { w.sec with afterWipe := some false } } : Chip).sec.afterWipe = some false) ∧ up.sec.active.contains 1 = false ∧ up.sec.treset = false ∧ up.dbg.cmd = none ∧
    ({ up with sec := { up.sec with treset := true } } : Chip).sec.treset = true ∧ lcsOf (commanded 1) = 3 := by decide +kernel
/-- JTAG owns the port, and debug is authorised or not. -/
def owned (auth : Bool) : Chip := { (up.setPort 1 1).setFlag pgThonos 3 14 auth with sec := { Sec.init with lcs := some 3, arc := some 0 } }
theorem wit_Gander_owner : (owned false).port 1 = BitVec.ofNat 36 (routeNo true) ∧ (owned false).dbg.cmd = none ∧ authorised (owned false) = false ∧
    authorised (owned true) = true ∧ (owned true).linked = false := by decide +kernel
/-- The command `op` of the owner of `c` has begun; its requests are asked. -/
def begun (op : Nat) (c : Chip) : Chip := { c with dbg := { c.dbg with cmd := some (BitVec.ofNat 36 (op * 2 ^ 30)), reqs := [], xact := Xact.none } }
def askedOf (op : Nat) (qs : List (Nat × Pkt)) (c : Chip) : Bool × Xact × Chip :=
  gather .gander (fun st => st == 0) qs Xact.none { begun op c with dbg := { (begun op c).dbg with reqs := qs } }
theorem wit_Gander_auth : let c := ((owned true).setPort 4 7).setPort 5 0
    (c.port 4).toNat = 7 ∧ c.flag pgThonos 3 23 = false ∧
    (let d := c.setFld (pgStop 0 14) 3 0 3 1; (askedOf 1 (authReqs 7 0 (begun 1 d)) d).1 = false) := by decide +kernel
theorem wit_Gander_halt : let c := (owned true).setFlag pgGander 3 0 true
    (∀ k < 4, (1 : BitVec 4).getLsbD k = true → c.running k = true) ∧ c.halted 0 = false ∧ (c.core 0).halt = none ∧ c.running 1 = false ∧
    (∀ k < 4, c.flag (pgWdg k) 3 2 = false ∧ c.fld (pgMseq k) 2 0 3 = 0) := by decide +kernel
/-- Core 0 is halted. -/
def halted0 : Chip := (owned true).setFlag (pgBw 0) 3 1 true
theorem wit_Gander_step : halted0.halted 0 = true ∧ (match feedOne 0 (wordOf5 7 0 0 0 0) 0 (begun 5 halted0) with | .inr c1 => (c1.core 0).cop == none && (c1.core 0).xact == Xact.none | .inl _ => false) = true ∧
    (match feedOne 0 (wordOf5 7 4 0 0 (1 + 64 * 0o25)) 0 (begun 5 halted0) with | .inl (5, _, _) => true | _ => false) = true ∧
    (halted0.setPort 4 0o100).port 4 = 0o100 ∧ (match feedOne 0 0 0 halted0 with | .inl (4, _, _) => true | _ => false) = true := by decide +kernel
theorem wit_Gander_memory : let c := ((owned true).setPort 4 64).setPort 6 2
    (memArgs true c).isSome = true ∧ (memArgs false c).isSome = true ∧ memArgs true (c.setPort 6 57) = none ∧ memArgs false (c.setPort 6 57) = none := by
  decide +kernel
theorem wit_Gander_serve : let c := ((owned true).setPort 4 64).setPort 6 2
    let r := askedOf 8 (mrdReqs true 64 8 (begun 8 c)) c
    let d := c.setFld (pgStop 0 14) 3 0 3 1
    memArgs true (begun 8 c) = some (true, 64, 8) ∧ r.1 = true ∧ (r.2.1.ans.getLastD (Srv.of 0)).status = 0 ∧
    (askedOf 8 (mrdReqs true 64 8 (begun 8 d)) d).1 = false := by decide +kernel
theorem wit_Gander_entry : let c := up.setCore 0 { Core.init with halt := some 1 }
    c.running 0 = true ∧ c.halted 0 = false ∧ (c.core 0).halt = some 1 ∧ atBoundary c 0 = true := by decide +kernel
theorem wit_Gander_event : let c := { up.setReg pgGander 2 0x100 with evh := { up.evh with gaRise := true } }
    c.evh.gaRise = true ∧ gaBit c 0 8 = true ∧ c.running 0 = true ∧ (c.core 0).halt = none := by decide +kernel
theorem wit_Gander_term : let c := (owned true).setTermTx 0 (some 5)
    (∀ j ∈ c.flockCores 0, (c.termTx j).isSome = true) ∧ (∀ j ∈ c.flockCores 0, c.termRx j = none) ∧
    (∃ j ∈ (c.setTermRx 0 (some 6)).flockCores 0, (c.setTermRx 0 (some 6)).termRx j ≠ none) := by decide +kernel
theorem wit_Gander_pins : let c := { up with pins := { up.pins with ir := 0x28, ibiPending := true } }
    (up.pins.ir = 1 ∨ ({ up with pins := { up.pins with ir := 1 } } : Chip).pins.ir = 1) ∧ c.pins.ir = 0x28 ∧ (0x200000000000#303).getLsbD 45 = true ∧ (0x2A#303).getLsbD 45 = false ∧ c.pins.ibiPending = true ∧ (5 : BitVec 7) ≠ 0 := by decide +kernel
theorem wit_OffIsolation : State.reset.chip.pwr.off = true ∧ alwaysOn (.aluAdd 0) = false ∧ alwaysOn .powerOnReset = true ∧ alwaysOn .thermalTrip = true ∧
    resetsAon .thermalTrip = false := by decide +kernel
theorem wit_Invariant : Memory.wf State.reset.chip.mem = true ∧ Memory.wf (up.bankWrite 0 5 allNonets false).mem = true := by decide +kernel
theorem wit_Frames : let w := immWord 0o43 4 8 0
    let c := at0 w up
    c.ready 0 (.store 0o43) w = true ∧ (c.w 0 (wRa w) + sextImm w).toNat % 8 = 0 ∧ bankBase 0 ≤ 8 ∧ 8 + 8 ≤ bankBase 0 + 4 * bankWords 0 ∧
    (∀ i < 8, nonetBad (c.cell (8 + i)) = false) ∧ val (at0 (wordOf5 3 4 8 10 4) up) 0 false 10 ≠ 0 := by decide +kernel

/-! ### One command each; expected values by hand from the rules named -/

/-- Core 0 at the word `w` with W6 and W8 as given. -/
def two (w : Word) (a b : Nat) : State := st (((at0 w up).setW 0 6 (BitVec.ofNat 36 a)).setW 0 8 (BitVec.ofNat 36 b))
/-- Carry and overflow of core 0. -/
def cv (c : Chip) : Bool × Bool := (c.psw 0 pswC, c.psw 0 pswV)

/-- R136: all ones plus one is zero with a carry and no overflow. -/
theorem test_add_wraps : sees (exec (.aluAdd 0) (two (wordOf5 1 4 6 8 0) 0xFFFFFFFFF 1)) (fun c => c.w 0 4 == 0 && cv c == (true, false) && c.pc 0 == 4) = true := by decide +kernel
/-- R136: C is the absence of a borrow. -/
theorem test_sub_borrow : sees (exec (.aluSub 0) (two (wordOf5 1 4 6 8 1) 0 1)) (fun c => c.w 0 4 == 0xFFFFFFFFF && cv c == (false, false)) = true := by decide +kernel
theorem test_sub_overflow : sees (exec (.aluSub 0) (two (wordOf5 1 6 6 8 1) 0x800000000 1)) (fun c => c.w 0 6 == 0x7FFFFFFFF && cv c == (true, true)) = true := by decide +kernel
/-- R161: W0 discards what is written. -/
theorem test_add_w0 : sees (exec (.aluAdd 0) (two (wordOf5 1 0 6 8 0) 3 4)) (fun c => c.w 0 0 == 0) = true := by decide +kernel
/-- Table 6-5: −1 is less than 1 signed, and not unsigned. -/
theorem test_slt : sees (exec (.aluSlt 0) (two (wordOf5 1 4 6 8 11) 0xFFFFFFFFF 1)) (fun c => c.w 0 4 == 1) = true := by decide +kernel
theorem test_sltu : sees (exec (.aluSltu 0) (two (wordOf5 1 4 6 8 12) 0xFFFFFFFFF 1)) (fun c => c.w 0 4 == 0) = true := by decide +kernel
/-- R171, R144: a count of the width or more clears, and the rotates take it modulo the width. -/
theorem test_shl_width : sees (exec (.shiftShl 0) (two (wordOf5 2 4 6 8 0) 1 36)) (fun c => c.w 0 4 == 0) = true := by decide +kernel
theorem test_sar_long : sees (exec (.shiftSar 0) (two (wordOf5 2 4 6 8 2) 0x800000000 40)) (fun c => c.w 0 4 == 0xFFFFFFFFF) = true := by decide +kernel
theorem test_rol_37 : sees (exec (.shiftRol 0) (two (wordOf5 2 4 6 8 3) 0x800000001 37)) (fun c => c.w 0 4 == 3) = true := by decide +kernel
/-- R172: −1 times −1 is 1, and the largest unsigned numbers give 2^72 − 2^37 + 1. -/
theorem test_mulf : sees (exec (.muldivMulf 0) (two (wordOf5 3 4 6 8 2) 0xFFFFFFFFF 0xFFFFFFFFF)) (fun c => c.w 0 4 == 1 && c.w 0 5 == 0) = true := by decide +kernel
theorem test_mulfu : sees (exec (.muldivMulfu 0) (two (wordOf5 3 4 6 8 3) 0xFFFFFFFFF 0xFFFFFFFFF)) (fun c => c.w 0 4 == 1 && c.w 0 5 == 0xFFFFFFFFE) = true := by decide +kernel
/-- R139: truncation toward zero, the remainder with the sign of the dividend; and the corner with V. -/
theorem test_div_negative : sees (exec (.muldivDiv 0) (two (wordOf5 3 4 6 8 4) 0xFFFFFFFF9 2)) (fun c => c.w 0 4 == 0xFFFFFFFFD && c.w 0 5 == 0xFFFFFFFFF && cv c == (false, false)) = true := by decide +kernel
theorem test_div_corner : sees (exec (.muldivDiv 0) (two (wordOf5 3 4 6 8 4) 0x800000000 0xFFFFFFFFF)) (fun c => c.w 0 4 == 0x800000000 && c.w 0 5 == 0 && cv c == (false, true)) = true := by decide +kernel
/-- Table 6-13: a zero divisor traps with cause 0o10 and writes nothing. -/
theorem test_divu_zero : sees (exec (.muldivDivu 0) (two (wordOf5 3 4 6 8 5) 7 0)) (fun c => c.w 0 4 == 4 && c.sr 0 srTCAUSE == 0o10 && c.psw 0 pswTH) = true := by decide +kernel
/-- IEEE 754: 1 + 1 = 2, and 1 / 0 is infinite with DIVZERO. -/
theorem test_fadd : sees (exec (.fpuFadd 0) (two (wordOf5 4 4 6 8 0) 0x3F800000 0x3F800000)) (fun c => c.w 0 4 == 0x40000000 && c.sr 0 srFPSW == 0) = true := by decide +kernel
theorem test_fdiv_zero : sees (exec (.fpuFdiv 0) (two (wordOf5 4 4 6 8 (3 * 64)) 0x3F800000 0)) (fun c => c.w 0 4 == 0x7F800000 && c.sr 0 srFPSW != 0) = true := by decide +kernel
/-- R175: 2^24 + 1 rounds to 2^24 in binary32, and 2.5 rounds to 2 (nearest, ties to even). -/
theorem test_fcvt_inexact : sees (exec (.fcvtIntToBinary32 0) (two (wordOf5 5 4 6 0 0) 0x1000001 0)) (fun c => c.w 0 4 == 0x4B800000 && c.sr 0 srFPSW != 0) = true := by decide +kernel
theorem test_fcvt_ties : sees (exec (.fcvtBinary32ToInt 0) (two (wordOf5 5 4 6 0 (2 * 256)) 0x40200000 0)) (fun c => c.w 0 4 == 2) = true := by decide +kernel
/-- Table 6-10 and R7: sign extension of a nonet, and the lower word of a double at the lower address. -/
theorem test_ldns : sees (exec (.scLdns 0) (st ((at0 (immWord 0o31 4 8 1) up).bankWrite 8 0x3FE00 allNonets false))) (fun c => c.w 0 4 == 0xFFFFFFFFF) = true := by decide +kernel
theorem test_ldd : sees (exec (.scLdd 0) (st (((at0 (immWord 0o35 4 8 0) up).bankWrite 8 1 allNonets false).bankWrite 12 2 allNonets false))) (fun c => c.w 0 4 == 1 && c.w 0 5 == 2) = true := by decide +kernel
theorem test_std : sees (exec (.scStd 0) (st (at0 (immWord 0o43 4 8 0) up))) (fun c => c.bankWord 8 == 4 && c.bankWord 12 == 5) = true := by decide +kernel
theorem test_stn : sees (exec (.scStn 0) (st ((at0 (immWord 0o40 4 8 2) up).setW 0 4 0xFFFFFFFFF))) (fun c => c.bankWord 8 == 0x7FC0000) = true := by decide +kernel
/-- R176: a misaligned word traps with cause 0o5 and the address. -/
theorem test_ldw_misaligned : sees (exec (.scLdw 0) (st (at0 (immWord 0o34 4 8 2) up))) (fun c => c.sr 0 srTCAUSE == 0o5 && c.sr 0 srTVAL == 10 && c.sr 0 srTPC == 0) = true := by decide +kernel
/-- Table 6-11: AADD returns the old word; STC with the reservation stores and answers 1, without it 0. -/
theorem test_aadd : sees (exec (.scAadd 0) (st ((at0 (wordOf5 6 4 8 5 2) up).bankWrite 8 100 allNonets false))) (fun c => c.w 0 4 == 100 && c.bankWord 8 == 105) = true := by decide +kernel
theorem test_stc : sees (exec (.scStc 0) (st ((at0 (wordOf5 6 4 8 5 1) up).setCore 0 { Core.init with resv := some 8 }))) (fun c => c.w 0 4 == 1 && c.bankWord 8 == 5) = true := by decide +kernel
theorem test_stc_fails : sees (exec (.scStc 0) (st (at0 (wordOf5 6 4 8 5 1) up))) (fun c => c.w 0 4 == 0 && c.bankWord 8 == 0) = true := by decide +kernel
/-- R182: branch offsets count words; J goes to 4 × TGT; JAL links W31; a LOOP of no passes skips its body. -/
theorem test_beq : sees (exec (.scBeq 0) (st (at0 (immWord 0o50 4 4 3) up))) (fun c => c.pc 0 == 12) = true := by decide +kernel
theorem test_bne : sees (exec (.scBne 0) (st (at0 (immWord 0o51 4 4 3) up))) (fun c => c.pc 0 == 4) = true := by decide +kernel
theorem test_jal : sees (exec (.scJal 0) (st (at0 (BitVec.ofNat 36 (0o61 * 2 ^ 29 + 100)) up))) (fun c => c.pc 0 == 400 && c.w 0 31 == 4) = true := by decide +kernel
theorem test_loop_skips : sees (exec (.scLoop 0) (st (at0 (immWord 0o56 0 0 4) up))) (fun c => c.pc 0 == 20 && !c.psw 0 pswLA) = true := by decide +kernel
/-- R184, R196: TRAP saves its PC and its code and enters vector 0; RTI goes back. -/
theorem test_trap : sees (exec (.scTrap 0) (st (at0 (wordOf5 7 0 0 0 (3 + 64 * 7)) (up.setSr 0 srTBASE 0o1000)))) (fun c => c.sr 0 srTCAUSE == 0o15 && c.sr 0 srTVAL == 7 && c.pc 0 == 0o1000) = true := by decide +kernel
theorem test_rti : sees (exec (.scRti 0) (st ((at0 (wordOf5 7 0 0 0 4) (up.setSr 0 srTPC 400)).setPsw 0 pswTH true))) (fun c => c.pc 0 == 400 && !c.psw 0 pswTH) = true := by decide +kernel
/-- R40: a COUNT result writes COUNT and BELL. -/
theorem test_reduction : sees (exec (.reductionDeliver 0) (st (up.setMseq 0 { Mseq.init with reds := [⟨2, true, 5, 0, true⟩] }))) (fun c => c.sr 0 srCOUNT == 5 && c.sr 0 srBELL == 1) = true := by decide +kernel
/-- R53, R56: a lock bit sets and a write of 0 does not clear it. -/
theorem test_locks : sees (exec (.registerWrite .hub 0 9 4) (st (up.setReg pgHub 9 1))) (fun c => c.reg pgHub 9 == 5) = true := by decide +kernel
/-- R54: EV_SET sets the pending bit. -/
theorem test_evSet : sees (exec (.evSet .hub 0 1) (st up)) (fun c => bitAt (c.reg pgHub 6) 1) = true := by decide +kernel
/-- R304: a WR of four nonets is stored and acknowledged. -/
theorem test_ringWr : sees (exec (.ringWr (packet 4 64 [1, 2, 3, 4]) []) (st up)) (fun c => c.bankWord 64 == wordOf [1, 2, 3, 4] && c.ring.flight.map (fun f => (f.opc, f.k.dst)) == [(opAck, (0, 1))]) = true := by decide +kernel
/-- Table 9-4: the ring port reads the word as it stood. -/
theorem test_bankAccess : sees (exec (.bankAccess 0 (some (.write 2 9 allNonets)) (some (.read 2))) (st (up.bankWrite 8 7 allNonets false)))
    (fun c => c.bankWord 8 == 9 && c.mem.ports == [.bank 0 false 7 false]) = true := by decide +kernel
/-- Table 11-3: a literal in O appears with the end of the cycle. -/
theorem test_cellLit : sees (exec (.cellLit 0 0) (st (running0 (BitVec.ofNat 36 (0o15 * 2 ^ 30 + 2 ^ 29 + 77))))) (fun c => ((c.tile 0).cell 0).o == 77) = true := by decide +kernel
/-- R367: LDI and CMPU. -/
theorem test_collieLdi : sees (exec (.collieLdi 0 0) (st (collie0 0x29123 chan0))) (fun c => (c.cch 0 0).gr 1 == 0x123 && (c.cch 0 0).pc == 1) = true := by decide +kernel
theorem test_collieCmpu : sees (exec (.collieCmpu 0 0) (st (collie0 0x320E0 { chan0 with g := [0, 3, 0, 5] }))) (fun c => (c.cch 0 0).gr 1 == 1) = true := by decide +kernel
/-- R381: training to Gen5 ×16 brings half 0 to L0. -/
theorem test_linkTraining : sees (exec (.linkTrainingDone 0 5 16 true) (st (up.setFld (pgPcie 0) 2 0 3 5))) (fun c => linkUp c 0 && c.fld (pgPcie 0) 3 6 5 == 16) = true := by decide +kernel
/-- R393: a descriptor that has come to its end with code 0 leaves V = 1 in word 7 of its entry, and HEAD advances. -/
theorem test_dma : sees (exec (.dmaDescriptorComplete 0 0 [] false [])
      (st ((engine1.setDma 0 0 { Dma.idle with words := entry0, code := some 0 }).setFld (pgPcie 0) 20 33 3 1)))
    (fun c => c.bankWord (bankBase 4 + 28) == 0x800000000 && c.fld (pgPcie 0) 19 0 12 == 1) = true := by decide +kernel
/-- R394: a timer that TALLY has reached raises its level. -/
theorem test_timer : sees (exec (.evhTimerExpiry 2) (st { up with evh := { up.evh with armed := [(2, true)] } })) (fun c => c.level 1148) = true := by decide +kernel
/-- R402: a request for the mode that the device is in fails with RESULT 1. -/
theorem test_modeReq : sees (exec (.modeReqSplit (.host 0)) (st up)) (fun c => c.fld pgHub 18 8 4 == 1 && c.mode == modeSplit) = true := by decide +kernel
/-- R435: at 100 °C TSTEP begins one below STEP. -/
theorem test_throttle : sees (exec (.throttleStep 1026) (st { up with pwr := { up.pwr with islands := [(1026, { Island.init with step := 8, plan := 8, temp := 100 })] } }))
    (fun c => (c.island 1026).tstep == some 7) = true := by decide +kernel
/-- R529: an undefined TAP instruction selects BYPASS. -/
theorem test_jtag : sees (exec (.jtagUpdateIr 0x11 false) (st up)) (fun c => c.pins.ir == 0x3F) = true := by decide +kernel
/-- R521: the dynamic address. -/
theorem test_i3c : sees (exec (.i3cDaa 9) (st up)) (fun c => c.fld pgBoard 3 10 7 == 9) = true := by decide +kernel
/-- The step takes the front command and leaves the rest. -/
theorem test_step : step { State.reset with pending := [.aluAdd 0, .tapReset] } = exec (.aluAdd 0) { State.reset with pending := [.tapReset] } := rfl

/-! ### Commands that are not well formed, one for each check -/

theorem test_wf_who : (Instr.evhRescan (.core 4)).wf = false ∧ (Instr.evhRescan (.core 3)).wf = true := by decide +kernel
theorem test_wf_bar : (Instr.hostMemRead 0 .bar0 (2 ^ 24 - 4) 8).wf = false ∧ (Instr.hostMemRead 0 .bar0 0 4097).wf = false ∧
    (Instr.hostMemWrite 0 .bar4 (2 ^ 26) [0] false).wf = false ∧ (Instr.hostMemWrite 0 .bar4 0 (List.replicate 513 0) false).wf = false := by decide +kernel
theorem test_wf_msix : (Instr.msixTableAccess 0 (2 ^ 24) none 4).wf = false ∧ (Instr.msixTableAccess 0 0 (some [0]) 4).wf = false := by decide +kernel
theorem test_wf_packet : (Instr.ringRd { packet 4 64 [] with init := 29 } []).wf = false ∧ (Instr.ringRd { packet 4 64 [] with dst := (3, 0) } []).wf = false ∧
    (Instr.ringRd { packet 4 64 [] with len := 257 } []).wf = false ∧ (Instr.ringRd { packet 4 64 [] with mask := [0] } []).wf = false ∧
    (Instr.ringRd (packet 4 64 [1]) []).wf = false ∧ (Instr.ringWr (packet 4 64 [1]) []).wf = false ∧ (Instr.ringRd (packet 4 64 []) [⟨2 ^ 31, false⟩]).wf = false := by
  decide +kernel
theorem test_wf_atomics : (Instr.ringAadd { packet 4 64 [] with nonet := false }).wf = false ∧ (Instr.ringLdr (packet 4 64 [1])).wf = false := by decide +kernel
theorem test_wf_strm : (Instr.strm (packet 65 64 (List.replicate 65 0))).wf = false ∧ (Instr.orderingProbe (packet 4 64 [])).wf = false ∧
    (Instr.xrCrossing 13 (packet 4 64 [])).wf = false ∧ (Instr.requestTimeout 0 0 29 0).wf = false := by decide +kernel
theorem test_wf_memory : (Instr.hbmRequest 0 (.queued 9 0)).wf = false ∧ (Instr.hbmRequest 0 (.read 12 0 1 [])).wf = false ∧ (Instr.hbmRequest 0 (.write 0 (2 ^ 36) [0])).wf = false ∧
    (Instr.bankAccess 7 (some (.read 65536)) none).wf = false ∧ (Instr.bankAccess 0 none (some (.write 0 0 [4]))).wf = false ∧
    (Instr.btestRegion 0 [(64, 0)]).wf = false := by decide +kernel
theorem test_wf_others : (Instr.thermalSample [(1040, 0)]).wf = false ∧ (Instr.linkTrainingDone 0 5 3 true).wf = false ∧
    (Instr.collieWindowWrite .hub 0 0 (List.replicate 65 0)).wf = false := by decide +kernel

/-- R92: POS of fold row 6 of physical column 2 of FD1 names its place, with no logical column before BOOT. -/
theorem test_pos : slotValue (pgFold 1 2 6) 16 Chip.reset = 0o44336000000 := by decide +kernel
/-- R512: a host write to any of slots 16 to 95 of the GANDER page is refused with cause 0o2. -/
theorem test_gander_slot : (writeSlot (.host 0) pgGander 20 1 up).fld pgGander 3 33 2 = 2 := by decide +kernel
/-- R299: a poisoned window write is cut at 256-octet boundaries into packets of at most 192 octets. -/
theorem test_write_cuts : writeCuts 0x40 512 true = [(0, 192), (192, 192), (384, 64), (448, 64)] := by decide +kernel
/-- R261, R534: with LOW8 in the plain layout, stream bits 36 to 43 are octet 4, which starts slice 1. -/
theorem test_first_slice : (({ Chan.idle with words := [0, 0, BitVec.ofNat 36 (2 * 2 ^ 33 + 2), BitVec.ofNat 36 (2 * 2 ^ 10)] } : Chan).firstAt 1 4) = true := by decide +kernel

/-- FIPS 180-4: the digest of "abc"; RFC 5639: the generator of brainpoolP384r1 lies on its curve. -/
theorem test_sha384 : beNat (sha384 [97, 98, 99]) =
    0xcb00753f45a35e8bb5a03d699ac65007272c32ab0eded1631a8b605a43ff5bed8086072ba1e7cc2358baeca134c825a7 := by decide +kernel
theorem test_curve : ecPoint (0x04 :: (beOctets 48 ecGx ++ beOctets 48 ecGy)) = some (ecGx, ecGy) := by decide +kernel
/-- R529: the IDCODE of the part, step aside. -/
theorem test_idcode : idcode.setWidth 28 = (0x7236BC7 : BitVec 28) := by
  unfold idcode
  generalize (BitVec.setWidth 4 partWord : BitVec 4) = x
  revert x
  decide
/-- R295, R297, Table 10-2: a WR of 57 nonets takes two flits, the last nonet in the low bits of the second; OP, TAG, FNUM, NFL and LEN of its header. -/
theorem test_flits : let k := { packet 57 64 (List.replicate 56 0 ++ [0x155]) with tag := 5 }
    flitCount opWr k = 2 ∧ (flitData opWr k 1).toNat = 0x155 ∧
    (flitFields opWr k 1).foldl (fun v f => v + f.2.2 * 2 ^ f.1) 0 / 2 ^ 72 % 2 ^ 28 = 57 + 2 ^ 9 * 1 + 2 ^ 14 * 1 + 2 ^ 16 * 1 + 2 ^ 18 * 5 + 2 ^ 24 * opWr := by
  decide +kernel
/-- Table 7-7: word 0o1021 of the ROM is stored with the even parity of each nonet. -/
theorem test_rom_word : csBad (csStored Chip.reset 0 0o1021) = none ∧ (csStored Chip.reset 0 0o1021).setWidth 144 = 0o042002100006050400001000010000036077674000000000#144 := by
  decide +kernel
/-- The worked example after R521: six octets of AON.RCAUSE, read in OFF. -/
theorem test_mgmt : (mgmtRead false (let c := Chip.reset.setReg pgAon 16 0o040400000000
    { c with pins := { c.pins with sel := [(0, (4, 16))] } })).out = [.mgmt [0x00, 0x00, 0x00, 0x04, 0x01, 0x00]] := by decide +kernel
/-- R233, R238: WINDOW = 0 sets no limit, so the window of a comparison that some cores have not reached does not end. -/
theorem test_no_window : sees (exec (.voteWindowExpiry false) (st ([1, 2, 3].foldl (fun c k => queued k c) (voting 0 up)))) (fun c => c.voteState == 1 && (c.mseq 0).voted.isNone) = true := by
  decide +kernel

end Sys2Proof.Tests
end

section
/-!
SUPPORT. The nonets of a word in the scratch banks (R7): what a read assembles and what a write stores.
-/
namespace Sys2Proof.Machine

/-- Bit `j` of nonet `i` of the word at `a` is bit `j` of the cell at `a + i`. -/
theorem Chip.getLsbD_bankWord (c : Chip) (a : Nat) {i j : Nat} (hi : i < 4) (hj : j < 9) :
    (c.bankWord a).getLsbD (9 * i + j) = (c.cell (a + i)).getLsbD j := by
  unfold Chip.bankWord
  change BitVec.getLsbD (w := 9 + 9 + 9 + 9) _ _ = _
  simp only [BitVec.getLsbD_append, BitVec.getLsbD_setWidth]
  obtain rfl | rfl | rfl | rfl : i = 0 ∨ i = 1 ∨ i = 2 ∨ i = 3 := by omega
  all_goals simp +arith [hj]

/-- Nonet `i` of the word at `a` stands in the cell at `a + i`. -/
theorem Chip.nonet_bankWord (c : Chip) (a : Nat) {i : Nat} (hi : i < 4) :
    (c.bankWord a >>> (9 * i)).setWidth 9 = (c.cell (a + i)).setWidth 9 := by
  apply BitVec.eq_of_getLsbD_eq
  intro j hj
  simp [hj, c.getLsbD_bankWord a hi hj]

/-- The nonets of a word as stored are those of its four cells. -/
theorem Chip.nonetsOf_bankWord (c : Chip) (a : Nat) :
    nonetsOf (c.bankWord a) = (List.range 4).map (fun i => (c.cell (a + i)).setWidth 9) :=
  List.map_congr_left fun _ hi => c.nonet_bankWord a (List.mem_range.mp hi)

/-- The nonets of a word, put together again, are the word. -/
@[simp] theorem wordOf_nonetsOf (v : Word) : wordOf (nonetsOf v) = v := by
  apply BitVec.eq_of_getLsbD_eq
  intro j hj
  obtain ⟨i, b, hi, hb, rfl⟩ : ∃ i b, i < 4 ∧ b < 9 ∧ j = 9 * i + b := ⟨j / 9, j % 9, by omega, by omega, by omega⟩
  have hle {m : Nat} (hm : 8 ≤ m) : b ≤ m := by omega
  obtain rfl | rfl | rfl | rfl : i = 0 ∨ i = 1 ∨ i = 2 ∨ i = 3 := by omega
  all_goals simp +arith [wordOf, nonetsOf, List.range_succ, hb, hle]

/-- A cell keeps its nonet beside the parity bit (R79). -/
@[simp] theorem nonet_nonetCell (v : Nonet) (inv : Bool) : (nonetCell v inv).setWidth 9 = v :=
  BitVec.setWidth_append_eq_right

@[simp] theorem Chip.cell_endResv (c : Chip) (a b : Nat) : (c.endResv a).cell b = c.cell b := by
  simp [Chip.cell]

/-- A cell after a write of the nonets `ns` of the word at `a`: nonet `n` goes to `a + n`, and every other cell is as it was. -/
theorem Chip.cell_bankWrite (c : Chip) (a b : Nat) (v : Word) (ns : List Nat) (inv : Bool) :
    (c.bankWrite a v ns inv).cell b =
      if a ≤ b ∧ b - a ∈ ns then nonetCell ((v >>> (9 * (b - a))).setWidth 9) inv else c.cell b := by
  unfold Chip.bankWrite
  rw [Chip.cell_endResv]
  induction ns generalizing c with
  | nil => simp
  | cons n ns ih =>
    simp only [List.foldl_cons, ih, Chip.cell_setCell, List.mem_cons]
    by_cases hn : b = a + n
    · subst hn
      simp
    · have hne : ¬ (a ≤ b ∧ b - a = n) := by omega
      simp only [hn, if_false, and_or_left, hne, false_or]

/-- A write of the whole word at `a` puts nonet `i` into the cell at `a + i`. -/
theorem Chip.nonet_bankWrite_all (c : Chip) (a : Nat) (v : Word) (inv : Bool) {i : Nat} (hi : i < 4) :
    ((c.bankWrite a v allNonets inv).cell (a + i)).setWidth 9 = (v >>> (9 * i)).setWidth 9 := by
  have hmem : i ∈ allNonets := by simp [allNonets]; omega
  simp [Chip.cell_bankWrite, hmem]

end Sys2Proof.Machine
end

section
/-!
SUPPORT. A core that reads intact words of its own bank is answered at once with their nonets, and no other state changes (R279, R297).
-/
namespace Sys2Proof.Machine

variable {c : Chip} {k a : Nat}

theorem bankBase_core (hk : k < 4) : bankBase k = 4194304 * k := by
  obtain rfl | rfl | rfl | rfl : k = 0 ∨ k = 1 ∨ k = 2 ∨ k = 3 := by omega
  all_goals rfl

theorem bankWords_core (hk : k < 4) : bankWords k = 1048576 := by
  obtain rfl | rfl | rfl | rfl : k = 0 ∨ k = 1 ∨ k = 2 ∨ k = 3 := by omega
  all_goals rfl

/-- An address within the bank of core `k` belongs to that bank (Table 2-6). -/
theorem bankAt_core (hk : k < 4) (hlo : bankBase k ≤ a) (hhi : a < bankBase k + 4 * bankWords k) :
    bankAt a = some k := by
  unfold bankAt
  rw [List.find?_range_eq_some]
  refine ⟨by simp [hlo, hhi], by simp; omega, fun j hj => ?_⟩
  rw [bankBase_core hk] at hlo
  have hbase := bankBase_core (Nat.lt_trans hj hk)
  have hwords := bankWords_core (Nat.lt_trans hj hk)
  simp
  omega

/-- A word whose check holds leaves no log of its read. -/
theorem Chip.bankRead_intact (b src : Nat) (ns : List Nat) (h : c.badNonets a = []) :
    c.bankRead b a src ns = (c.bankWord a, false, c) := by
  simp [Chip.bankRead, Chip.bankParity, h]

/-- An aligned run of four nonets touches one word. -/
theorem runWords_word (ha : a % 4 = 0) : ∃ ns, runWords a 4 = [(a, ns)] := by
  simp [runWords, ha]

/-- A read of an intact word as a run of nonets. -/
theorem bankRun_word (b src : Nat) (ha : a % 4 = 0) (h : c.badNonets a = []) :
    bankRun b src a 4 c = (⟨stOk, nonetsOf (c.bankWord a), []⟩, c) := by
  obtain ⟨ns, hw⟩ := runWords_word ha
  have hmask : (List.range 4).filter (fun i => nonetBad (c.cell (a + i))) = [] := h
  simp [bankRun, hw, hmask, Chip.bankRead_intact b src ns h, c.nonetsOf_bankWord]

/-- Core `k` may read the word at `a` of its own bank: the word is aligned, within the bank and intact, and the bank serves (R284, R287, R288). -/
structure OwnWord (c : Chip) (k a : Nat) : Prop where
  core : k < 4
  low : bankBase k ≤ a
  high : a + 4 ≤ bankBase k + 4 * bankWords k
  aligned : a % 4 = 0
  on : bankOn c k = true
  steady : bankClearing c k = false
  intact : c.badNonets a = []

namespace OwnWord

/-- The banks of the cores end below the other banks and the register pages (Table 2-6). -/
theorem lt (h : OwnWord c k a) : a + 4 ≤ 0o100000000 := by
  have hhi := h.high
  rw [bankBase_core h.core, bankWords_core h.core] at hhi
  have := h.core
  omega

/-- The owner port serves the read of a word. -/
theorem bankServe_read (h : OwnWord c k a) {q : Pkt} (haddr : q.addr.toNat = a) (hlen : q.len.toNat = 4) :
    bankServe opRd k true q c = (some ⟨stOk, nonetsOf (c.bankWord a), []⟩, c) := by
  have hne : k ≠ 7 := by have := h.core; omega
  have hin : inBank k a 1 = true := by simpa [inBank] using ⟨h.low, h.high⟩
  have hwipe : bankWiping c k = false := by simp [bankWiping, hne]
  simp [bankServe, haddr, hlen, h.aligned, hne, hin, h.on, h.steady, hwipe, bankRun_word k _ h.aligned h.intact, opRd, opCop]

theorem addr_toNat (h : OwnWord c k a) (d : Chip) : (coreRd k a 4 d).2.addr.toNat = a := by
  have hlt := h.lt
  simp [coreRd, request]
  omega

/-- A load's request for a word is answered at once, whatever the state `d` in which it was formed. -/
theorem issue_read (h : OwnWord c k a) (d : Chip) :
    issue (.core k) (coreRd k a 4 d).1 (coreRd k a 4 d).2 c = (.answer ⟨stOk, nonetsOf (c.bankWord a), []⟩, c) := by
  have hbank : bankAt a = some k := bankAt_core h.core h.low (by have := h.high; omega)
  have hserve := h.bankServe_read (h.addr_toNat d) (by simp [coreRd, request])
  have hnonet : (coreRd k a 4 d).2.nonet = true := rfl
  have hopc : (coreRd k a 4 d).1 = opRd := rfl
  simp [issue, h.addr_toNat, hnonet, hbank, Option.filter, ownerBank, hopc, hserve]

end OwnWord

/-- Loads of intact words of the own bank that are still to be asked are all answered at once (R307). -/
theorem sendRest_ownWords (as : List Nat) (d : Chip) (x : Xact) (hx : ∀ r ∈ x.ans, r.status = 0) (h : ∀ a ∈ as, OwnWord c k a) :
    sendRest (.core k) (fun st => st == 0) (as.map (fun a => coreRd k a 4 d)) x c =
      (true, { x with ans := x.ans ++ as.map (fun a => ⟨stOk, nonetsOf (c.bankWord a), []⟩) }, c) := by
  induction as generalizing x with
  | nil => simp [sendRest]
  | cons a as ih =>
    have hgo : x.ans.any (fun r => !(r.status == 0)) = false := by simpa using hx
    rw [List.map_cons, sendRest, hgo, (h a List.mem_cons_self).issue_read d]
    simp only [Bool.false_eq_true, if_false]
    rw [ih]
    · simp
    · simp only [List.mem_append, List.mem_singleton]
      rintro r (hr | rfl)
      · exact hx r hr
      · rfl
    · exact fun b hb => h b (List.mem_cons_of_mem _ hb)

/-- The accesses of a load of intact words of the own bank are over at once, and leave nothing to wait for. -/
theorem coreAccess_ownWords (w : Word) (as : List Nat) (d : Chip) (hx : (c.core k).xact = Xact.none) (h : ∀ a ∈ as, OwnWord c k a) :
    coreAccess k w (as.map (fun a => coreRd k a 4 d)) c = (some (as.map (fun a => ⟨stOk, nonetsOf (c.bankWord a), []⟩)), c) := by
  have hsend := sendRest_ownWords as d Xact.none (by simp [Xact.none]) h
  have hgather : gather (.core k) (fun st => st == 0) (as.map (fun a => coreRd k a 4 d)) Xact.none c = _ := hsend
  simp only [coreAccess, hx, hgather, Chip.setXact]
  simp [Xact.none]

/-- LDD from the own bank: the word at the lower address goes to the lower half of the pair (R7, R176). -/
theorem exLoad_ldd {w x : Word} (on : Bool) (hq : c.quiet k = true) (hx : (c.core k).xact = Xact.none)
    (ha : c.w k (wRa w) + sextImm w = x) (h8 : x.toNat % 8 = 0) (h0 : OwnWord c k x.toNat) (h4 : OwnWord c k (x.toNat + 4)) :
    exLoad k 0o35 on w c = .done (c.setPair k (wRd w) (c.bankWord (x.toNat + 4) ++ c.bankWord x.toNat)) := by
  have hpage : inPages x.toNat = false := by
    have := h0.lt
    simp [inPages]
    omega
  have hacc := coreAccess_ownWords w [x.toNat, x.toNat + 4] c hx (by simp [h0, h4])
  simp only [List.map_cons, List.map_nil] at hacc
  simp [exLoad, ha, memWidth, h8, dataCmp_quiet hq, hpage, hacc, allOk, anyBad, ansWord, stOk]

end Sys2Proof.Machine
end
section
/-!
SUPPORT. The end of an instruction leaves the W registers as they were, and a pair that is written reads back (R162).
-/
namespace Sys2Proof.Machine

variable {c : Chip}

@[simp] theorem Chip.w_setPsw (c : Chip) (k b j : Nat) (v : Bool) (r : BitVec 5) : (c.setPsw k b v).w j r = c.w j r := rfl
@[simp] theorem Chip.w_setPc (c : Chip) (k j : Nat) (v : Word) (r : BitVec 5) : (c.setPc k v).w j r = c.w j r := rfl
@[simp] theorem Chip.w_setFlag (c : Chip) (p s b j : Nat) (v : Bool) (r : BitVec 5) : (c.setFlag p s b v).w j r = c.w j r := rfl
@[simp] theorem Chip.w_modMseq (c : Chip) (k j : Nat) (f : Mseq → Mseq) (r : BitVec 5) : (c.modMseq k f).w j r = c.w j r := rfl

@[simp] theorem w_advance (k n j : Nat) (c : Chip) (r : BitVec 5) : (advance k n c).w j r = c.w j r := by
  unfold advance
  dsimp only
  split
  · split <;> simp
  · simp

@[simp] theorem w_stepEnd (k j : Nat) (c : Chip) (r : BitVec 5) : (stepEnd k c).w j r = c.w j r := by
  unfold stepEnd
  dsimp only
  split
  · simp
  · rfl

@[simp] theorem w_flushTry (k j : Nat) (c : Chip) (r : BitVec 5) : (flushTry k c).w j r = c.w j r := by
  unfold flushTry
  dsimp only
  split
  · exact foldl_same (fun d => d.w j r) _ _ (fun d i => by simp) c
  · rfl

@[simp] theorem w_retireOne (k j : Nat) (c : Chip) (r : BitVec 5) : (retireOne k c).w j r = c.w j r := by
  simp [retireOne]

/-- The registers of a pair on an even base other than W0 are two, and neither is W0. -/
theorem evenReg_succ {r : BitVec 5} (h : evenReg r = true) : r ≠ r + 1 ∧ r + 1 ≠ 0 := by
  revert r
  decide

/-- A pair on an even base other than W0 reads back as it was written (R162). -/
theorem Chip.pair_setPair (c : Chip) (k : Nat) {r : BitVec 5} (v : Double) (he : evenReg r = true) (h0 : r ≠ 0) :
    (c.setPair k r v).pair k r = v := by
  obtain ⟨hne, hs⟩ := evenReg_succ he
  have hlow : (c.setPair k r v).w k r = v.setWidth 36 := by
    rw [Chip.setPair, Chip.w_setW, if_neg (fun h => hne h.2.1), Chip.w_setW, if_pos ⟨rfl, rfl, h0⟩]
  have hhigh : (c.setPair k r v).w k (r + 1) = (v >>> 36).setWidth 36 := by
    rw [Chip.setPair, Chip.w_setW, if_pos ⟨rfl, rfl, hs⟩]
  rw [Chip.pair, hlow, hhigh]
  apply BitVec.eq_of_getLsbD_eq
  intro i hi
  rw [BitVec.getLsbD_append]
  by_cases hi' : i < 36
  · simp [hi']
  · have hup : i - 36 < 36 := by omega
    have hsum : 36 + (i - 36) = i := by omega
    simp [hi', hup, hsum]

end Sys2Proof.Machine
end

section
/-!
SUPPORT. The order of nonets in words and of words in doubles (R7).
-/
namespace Sys2Proof.Machine

variable {c : Chip} {k : Nat} {w : Word}

/-- LDD of a ready core from its own bank loads the pair on RD, W0 apart (R7, R162, R176). -/
theorem pair_coreStep_ldd (hready : c.ready k (.load 0o35) w = true) {x : Word} (ha : c.w k (wRa w) + sextImm w = x)
    (h8 : x.toNat % 8 = 0) (h0 : OwnWord c k x.toNat) (h4 : OwnWord c k (x.toNat + 4)) (hrd : wRd w ≠ 0) :
    (coreStep k (some (.load 0o35)) c).pair k (wRd w) = c.bankWord (x.toNat + 4) ++ c.bankWord x.toNat := by
  obtain ⟨-, hxact, -, hquiet, -, -, hlegal⟩ := ready_parts hready
  have heven : evenReg (wRd w) = true := by simpa [scalarLegal] using hlegal
  rw [coreStep_done hready (by simp) (exLoad_ldd _ hquiet hxact ha h8 h0 h4)]
  simpa [Chip.pair] using Chip.pair_setPair c k _ heven hrd

end Sys2Proof.Machine

namespace Sys2Proof
open Sys2Proof.Machine

/-- Settles O39: the nonets by the cells of a word, and LDD by the two reads that the owner port answers at once. -/
theorem nonetsOfAWord : Obligations.NonetsOfAWord := by
  unfold Obligations.NonetsOfAWord
  refine ⟨fun c a i hi => c.nonet_bankWord a hi, fun c a v i hi => c.nonet_bankWrite_all a v false hi, ?_⟩
  intro k s w hready a hlo hhi h8 hon hclear hgood0 hgood4 hrd
  obtain ⟨hrun, -⟩ := ready_parts hready
  refine ⟨_, scalar_run s k (.load 0o35) (on_of_mayRun hrun), pair_coreStep_ldd hready rfl h8 ?_ ?_ hrd⟩
  · exact ⟨k.isLt, hlo, by omega, by omega, hon, hclear, hgood0⟩
  · exact ⟨k.isLt, by omega, by omega, by omega, hon, hclear, hgood4⟩

end Sys2Proof
end

section
/-!
SUPPORT. A refused write leaves its record in STAT and no other trace (R52, R53).
-/
namespace Sys2Proof.Machine

variable (c : Chip) (p s cause : Nat)

/-- A write that is refused while ERR is 1 changes nothing. -/
theorem Chip.refuse_again (h : c.flag p 3 35 = true) : c.refuse p s cause = c := by
  simp [Chip.refuse, h]

/-- A write that is refused while ERR is 0 rewrites STAT alone. -/
theorem Chip.refuse_first (h : c.flag p 3 35 = false) :
    c.refuse p s cause = c.setReg p 3 (withField (withField (withField (c.reg p 3) 35 1 1) 33 2 cause) 24 9 s) := by
  simp [Chip.refuse, h]

/-- After a refusal ERR is 1. -/
theorem Chip.flag_refuse_err : (c.refuse p s cause).flag p 3 35 = true := by
  cases h : c.flag p 3 35 with
  | true => rw [c.refuse_again p s cause h, h]
  | false =>
    rw [c.refuse_first p s cause h, Chip.flag, c.reg_setReg_self, bitAt_withField_other _ _ _ _ _ (by omega),
      bitAt_withField_other _ _ _ _ _ (by omega)]
    exact bitAt_withField_self _ 35 true (by omega)

/-- The first refusal sets ERRCAUSE. -/
theorem Chip.fld_refuse_cause (h : c.flag p 3 35 = false) : (c.refuse p s cause).fld p 3 33 2 = cause % 2 ^ 2 := by
  rw [c.refuse_first p s cause h, Chip.fld, c.reg_setReg_self, fieldOf_withField_other _ _ _ _ _ _ (by omega) (by omega),
    fieldOf_withField_self _ _ _ _ (by omega)]

/-- A refusal leaves every register but STAT of its page. -/
theorem Chip.reg_refuse_other {q r : Nat} (hr : r < 512) (hne : (q, r) ≠ (p, 3)) : (c.refuse p s cause).reg q r = c.reg q r := by
  cases h : c.flag p 3 35 with
  | true => rw [c.refuse_again p s cause h]
  | false =>
    rw [c.refuse_first p s cause h, c.reg_setReg p 3 q r _ (by omega) hr, if_neg]
    rintro ⟨rfl, rfl⟩
    exact hne rfl

/-- A refusal changes registers alone. -/
theorem Chip.refuse_regs_only : { c.refuse p s cause with regs := c.regs } = c := by
  cases h : c.flag p 3 35 with
  | true => rw [c.refuse_again p s cause h]
  | false => rw [c.refuse_first p s cause h]; rfl

end Sys2Proof.Machine
end

section
/-!
SUPPORT. The THONOS page and the page of the secure bank: which slots they open, and what a read or a write of them comes to (R58).
-/
namespace Sys2Proof.Machine

variable {who : Who} {p s : Nat} {v : Word} {c : Chip}

/-- The two pages that serve initiators other than Thonos in slots 0 to 3 alone (R58). -/
def securePage (p : Nat) : Prop := p = pgThonos ∨ p = pgBank 7

theorem pageBlock_securePage (hp : securePage p) : pageBlock p = (.thonos, 0) ∨ pageBlock p = (.bank, 7) := by
  obtain rfl | rfl := hp
  · exact .inl rfl
  · exact .inr rfl

theorem slotOpen_securePage (hw : who ≠ .thonos) (hp : securePage p) : slotOpen who p s = decide (s ≤ 3) := by
  obtain rfl | rfl := hp <;> simp [slotOpen, hw, pgThonos, pgBank]

/-- A slot that is not open reads zero without side effects, on any page. -/
theorem readSlot_closed (h : slotOpen who p s = false) : readSlot who p s c = (0, c) := by
  simp [readSlot, h]

/-- No read of an open slot of these pages has a side effect. -/
theorem readSlot_securePage (hp : securePage p) (h : slotOpen who p s = true) : readSlot who p s c = (slotValue p s c, c) := by
  obtain hb | hb := pageBlock_securePage hp <;> simp [readSlot, h, hb]

/-- These pages have no slot that waits for room or faults: a write is answered OK unless the page is gone (R57). -/
theorem slotStatus_securePage (hp : securePage p) (hgone : pageGone c p = false) : slotStatus p s c = 0 := by
  obtain hb | hb := pageBlock_securePage hp <;> simp [slotStatus, hgone, hb]

/-- A write of a closed slot of these pages is refused with cause 2. -/
theorem writeSlot_closed_securePage (hp : securePage p) (h : slotOpen who p s = false) : writeSlot who p s v c = c.refuse p s 2 := by
  have hlisted : (pageBlock p).1 ≠ .unlisted := by
    obtain hb | hb := pageBlock_securePage hp <;> simp [hb]
  have hhub : p ≠ pgHub := by
    rintro rfl
    simp [securePage, pgHub, pgThonos, pgBank] at hp
  cases who <;> simp [writeSlot, hlisted, hhub, h]

theorem pageWrite_closed_securePage (hp : securePage p) (h : slotOpen who p s = false) (hon : c.pwr.off = false)
    (hgone : pageGone c p = false) : pageWrite who p s v c = c.refuse p s 2 := by
  simp [pageWrite, hon, slotStatus_securePage hp hgone, writeSlot_closed_securePage hp h]

/-- A write that nothing refuses has its effect, on any page. -/
theorem pageWrite_of_takes (h : c.takes who p s v = true) : pageWrite who p s v c = writeEffect who p s v c := by
  have hrun := write_run ⟨c, []⟩ who p s v h
  simpa [State.write, State.run, State.on] using hrun

end Sys2Proof.Machine

namespace Sys2Proof
open Sys2Proof.Machine

/-- Settles O38: slots above 3 are closed to the initiator, a closed slot reads zero, and a write of one is a refusal with cause 2. -/
theorem securePagesServeFourSlots : Obligations.SecurePagesServeFourSlots := by
  unfold Obligations.SecurePagesServeFourSlots
  intro who p s v c hw hp _
  have hopen : slotOpen who p s = decide (s ≤ 3) := slotOpen_securePage hw hp
  refine ⟨fun hs => readSlot_securePage hp (by simpa [hopen] using hs), fun hs => readSlot_closed (by simpa [hopen] using hs), ?_,
    fun _ htakes => pageWrite_of_takes htakes⟩
  intro hon hgone hs
  rw [pageWrite_closed_securePage hp (by simpa [hopen] using hs) hon hgone]
  exact ⟨c.flag_refuse_err p s 2, c.fld_refuse_cause p s 2, fun q r => c.reg_refuse_other p s 2, c.refuse_regs_only p s 2⟩

end Sys2Proof
end

section
/-!
SUPPORT. The owner of the debug port: what a read or a write of a port slot comes to by who owns the port, and what releases it (R490).
-/
namespace Sys2Proof.Machine

variable {jtag : Bool} {v : Word} {s : Nat} {c d : Chip}

/-! ### Who owns the port -/

theorem ownsPort_eq_true : ownsPort c jtag = true ↔ (c.port 1).toNat = routeNo jtag := by
  simp [ownsPort]

/-- No route has the number of another. -/
theorem routeNo_inj {i j : Bool} (h : routeNo i = routeNo j) : i = j := by
  revert i j
  decide

/-- OWN = 0 names no route. -/
theorem routeNo_ne_zero (jtag : Bool) : routeNo jtag ≠ 0 := by
  cases jtag <;> decide

/-- OWN holds one number, so that the port has one owner at most. -/
theorem ownsPort_unique {i j : Bool} (hi : ownsPort c i = true) (hj : ownsPort c j = true) : i = j :=
  routeNo_inj ((ownsPort_eq_true.mp hi).symm.trans (ownsPort_eq_true.mp hj))

/-- While OWN is 0 no route owns the port. -/
theorem ownsPort_of_port_eq_zero (h : c.port 1 = 0) : ownsPort c jtag = false := by
  simpa [ownsPort, h] using (routeNo_ne_zero jtag).symm

/-- Who owns the port is a matter of its own state alone. -/
theorem ownsPort_congr (h : d.dbg = c.dbg) : ownsPort d jtag = ownsPort c jtag := by
  simp [ownsPort, Chip.port, h]

/-! ### Writes and reads -/

/-- A write of slot 1 is a write of OWN. -/
theorem dbgWrite_own : dbgWrite jtag 1 v c = ownWrite jtag v c := by
  unfold dbgWrite
  split
  · simp [ownWrite, *]
  · rfl

theorem ownWrite_claim (hon : c.pwr.off = false) (hfree : c.port 1 = 0) (hv : v.toNat % 4 = routeNo jtag) :
    ownWrite jtag v c = c.setPort 1 (BitVec.ofNat 36 (routeNo jtag)) := by
  simp [ownWrite, portServes, hon, hfree, hv]

theorem ownWrite_release (hon : c.pwr.off = false) (howns : ownsPort c jtag = true) (hv : v.toNat % 4 = 0) :
    ownWrite jtag v c = c.setPort 1 0 := by
  have hroute : 0 ≠ routeNo jtag := (routeNo_ne_zero jtag).symm
  simp [ownWrite, portServes, hon, howns, hv, hroute]

theorem ownWrite_ignored (howns : ownsPort c jtag = false) (hclaim : ¬ (c.port 1 = 0 ∧ v.toNat % 4 = routeNo jtag)) :
    ownWrite jtag v c = c := by
  simp only [ownWrite, if_neg hclaim]
  simp [howns]

/-- Of a route that is not the owner, the port takes no write but that of OWN. -/
theorem dbgWrite_ignored (howns : ownsPort c jtag = false) (hs : s ≠ 1) : dbgWrite jtag s v c = c := by
  simp [dbgWrite, howns, hs]

/-- To a route that is not the owner, the port shows PID, OWN and PSTAT alone. -/
theorem dbgRead_hidden (howns : ownsPort c jtag = false) (h0 : s ≠ 0) (h1 : s ≠ 1) (h3 : s ≠ 3) : dbgRead jtag s c = (0, c) := by
  simp [dbgRead, howns, h0, h1, h3]

/-! ### Releases -/

/-- A release changes the port alone. -/
theorem releasePort_eq : releasePort jtag c = { c with dbg := (releasePort jtag c).dbg } := by
  unfold releasePort
  split <;> rfl

/-- What a release leaves of the port is a matter of the port's own state alone. -/
theorem releasePort_dbg_congr (h : d.dbg = c.dbg) : (releasePort jtag d).dbg = (releasePort jtag c).dbg := by
  simp only [releasePort, ownsPort_congr h]
  split
  · simp [Chip.setPort, h]
  · exact h

theorem ownsPort_releasePort : ownsPort (releasePort jtag c) jtag = false := by
  unfold releasePort
  split
  case isTrue => exact ownsPort_of_port_eq_zero (by simp [Chip.port_setPort])
  case isFalse h => exact eq_false_of_ne_true h

/-- A device reset that leaves a powered mode brings the port to its reset state. -/
theorem deviceReset_dbg (hon : c.pwr.off = false) (cause : Nat) : (deviceReset cause c).dbg = Dbg.init := by
  simp [deviceReset, hon, Chip.reset]

theorem ownsPort_deviceReset (hon : c.pwr.off = false) (cause : Nat) : ownsPort (deviceReset cause c) jtag = false :=
  ownsPort_of_port_eq_zero (by simp [Chip.port, deviceReset_dbg hon, Dbg.init])

/-- The last acts of an FLR of PF3: the port is released if PCI Express owns it, and the event occurs. -/
theorem flr_pf3_eq (code : Nat) (landed : List Bool) : ∃ d, flr 3 code landed c = (releasePort false d).raise (pgPf 3) 0 :=
  ⟨_, rfl⟩

theorem ownsPort_flr_pf3 (code : Nat) (landed : List Bool) : ownsPort (flr 3 code landed c) false = false := by
  obtain ⟨d, hd⟩ := flr_pf3_eq (c := c) code landed
  rw [hd, ownsPort_congr (Chip.raise_dbg ..)]
  exact ownsPort_releasePort

theorem ownsPort_tapReset : ownsPort (tapReset c) true = false := ownsPort_releasePort

/-- Test-Logic-Reset selects IDCODE and changes the port alone besides. -/
theorem tapReset_eq : tapReset c = { c with pins := { c.pins with ir := 1 }, dbg := (tapReset c).dbg } := releasePort_eq

/-- The port is released if JTAG owns it, and is as it was if not. -/
theorem tapReset_dbg : (tapReset c).dbg = (if ownsPort c true then c.setPort 1 0 else c).dbg :=
  releasePort_dbg_congr rfl

/-- Authorisation is kept by Thonos, and a release does not relock debug. -/
theorem authorised_tapReset : authorised (tapReset c) = authorised c := by
  rw [tapReset_eq]
  rfl

/-- A halt is a bit of the core's own STAT, and a release does not end it. -/
theorem halted_tapReset (k : Nat) : (tapReset c).halted k = c.halted k := by
  rw [tapReset_eq]
  rfl

end Sys2Proof.Machine

namespace Sys2Proof
open Sys2Proof.Machine

/-- Settles O40: by who owns the port for the accesses, and by the last act of each reset for the releases. -/
theorem debugPortOwnership : Obligations.DebugPortOwnership := by
  unfold Obligations.DebugPortOwnership
  intro jtag v slot c hon
  refine ⟨?unique, ?claim, ?release, ?otherOwn, dbgWrite_ignored, dbgRead_hidden, ?deviceReset, ownsPort_flr_pf3,
    ownsPort_tapReset, tapReset_eq, tapReset_dbg, authorised_tapReset, fun k => halted_tapReset k⟩
  case unique => exact fun ⟨hjtag, hpcie⟩ => Bool.noConfusion (ownsPort_unique hjtag hpcie)
  case claim => exact fun hfree hv => dbgWrite_own.trans (ownWrite_claim hon hfree hv)
  case release => exact fun howns hv => dbgWrite_own.trans (ownWrite_release hon howns hv)
  case otherOwn => exact fun howns hclaim => dbgWrite_own.trans (ownWrite_ignored howns hclaim)
  case deviceReset => exact fun cause => ⟨ownsPort_deviceReset hon cause, ownsPort_deviceReset hon cause⟩

end Sys2Proof
end
